-- ==== Sys2Proof/Word.lean ====
section
/-! DEFINITION. Word.lean: the value types of the spec (`00_scope.md` R7, R8, R10) and the two shapes of lane files. -/

namespace Sys2Proof

/-- A data byte, and a storage unit of a buffer: `BYTE_W` = `UNIT_W` = 8 bits (R7, R8). -/
abbrev Byte := BitVec 8

/-- A sextet, `SEXTET_W` = 6 bits, unsigned (R7). -/
abbrev Sextet := BitVec 6

/-- A symbol code, `SYM_W` = 24 bits (R8). -/
abbrev Symbol := BitVec 24

/-- A register or a command word of the host port, 32 bits (R51, R75). -/
abbrev Word := BitVec 32

/-- Three like things in lane order: the shape of the byte lanes (`10_state.md` R24). -/
structure Triple (α : Type) where
  l0 : α
  l1 : α
  l2 : α
  deriving DecidableEq, Repr

/-- Four like things in lane order: the shape of the sextet and of the symbol lanes
(`10_state.md` R25, R26). -/
structure Quad (α : Type) where
  l0 : α
  l1 : α
  l2 : α
  l3 : α
  deriving DecidableEq, Repr

end Sys2Proof
end

