-- ==== Sys2Proof/Syntax.lean ====
section
/-! DEFINITION. Syntax.lean: the twelve commands of `30_encoding.md` R78, one constructor each. -/

namespace Sys2Proof

/-- The alphabet selector `A` (R77): 0 = data, 1 = padding. -/
inductive Alphabet where
  | data
  | padding
  deriving DecidableEq, Repr

/-- The lane number `L` (R77): it selects `S[L]` and `Y[L]` together. -/
inductive Lane where
  | l0
  | l1
  | l2
  | l3
  deriving DecidableEq, Repr

/-- The commands of R78. -/
inductive Instr where
  /-- Pack a full triplet (R118). -/
  | pack3
  /-- Pack a 2-byte remainder (R119). -/
  | pack2
  /-- Pack a 1-byte remainder (R120). -/
  | pack1
  /-- Unpack a full quadruplet (R121). -/
  | unpk4
  /-- Unpack three sextets into two bytes (R122). -/
  | unpk3
  /-- Unpack two sextets into one byte (R123). -/
  | unpk2
  /-- Index to symbol (R103). -/
  | symat (a : Alphabet) (l : Lane)
  /-- Symbol to index (R104). -/
  | idxof (a : Alphabet) (l : Lane)
  /-- Format one group of `n` real bytes (R139); `n` = 0 is ill-formed (R79). -/
  | gfmt (n : BitVec 2)
  /-- Validate and parse one group; `final` is the `F` bit (R159). -/
  | gval (final : Bool)
  /-- Encode the whole input buffer (R140). -/
  | encode
  /-- Decode the whole input buffer (R160). -/
  | decode
  deriving DecidableEq, Repr

end Sys2Proof
end

