-- ==== Sys2Proof/WellFormed.lean ====
section
/-! DEFINITION. WellFormed.lean: which terms of `Instr` are commands. The operand types admit only legal alphabets,
lanes and flags, so one check is left: the byte count of GFMT (`30_encoding.md` R77, R79). -/

namespace Sys2Proof

/-- GFMT with `N` = 0 is no command (R79); every other term is one. -/
def Instr.wellFormed : Instr → Bool
  | .gfmt n => n != 0
  | .pack3 | .pack2 | .pack1 | .unpk4 | .unpk3 | .unpk2 => true
  | .symat _ _ | .idxof _ _ | .gval _ => true
  | .encode | .decode => true

end Sys2Proof
end

