-- ==== Sys2Proof/Decode.lean ====
section
/-! DEFINITION. Decode.lean: command words to commands and back (`30_encoding.md` R75 to R79). -/

namespace Sys2Proof

/-- Why a word is no command (R79). -/
inductive DecodeError where
  /-- The opcode is assigned to no command. -/
  | unassignedOpcode
  /-- Some bit of 23:8 is 1. -/
  | reservedBits
  /-- Some argument bit that the format shows as 0 is 1. -/
  | argumentBits
  /-- GFMT with `N` = 0. -/
  | gfmtZero
  deriving DecidableEq, Repr

/-- The opcode field `OPC`, bits 31:24 (R76). -/
def opcodeField (w : Word) : BitVec 8 := w.extractLsb' 24 8

/-- Bits 23:8, zero in every format (R76). -/
def zeroField (w : Word) : BitVec 16 := w.extractLsb' 8 16

/-- The argument byte, bits 7:0 (R76). -/
def argField (w : Word) : BitVec 8 := w.extractLsb' 0 8

/-- The alphabet selector `A` of one bit (R77). -/
def alphabetOf (a : BitVec 1) : Alphabet := if a = 0 then .data else .padding

/-- The lane number `L` of two bits (R77). -/
def laneOf (l : BitVec 2) : Lane :=
  if l = 0 then .l0 else if l = 1 then .l1 else if l = 2 then .l2 else .l3

/-- Format Z: the argument byte is zero (R76). -/
def decodeZ (i : Instr) (arg : BitVec 8) : Except DecodeError Instr :=
  if arg = 0 then .ok i else .error .argumentBits

/-- Format L: bits 7:3 zero, `A` in bit 2, `L` in bits 1:0 (R76). -/
def decodeL (f : Alphabet → Lane → Instr) (arg : BitVec 8) : Except DecodeError Instr :=
  if arg.extractLsb' 3 5 = 0 then .ok (f (alphabetOf (arg.extractLsb' 2 1)) (laneOf (arg.extractLsb' 0 2)))
  else .error .argumentBits

/-- Format N: bits 7:2 zero, `N` in bits 1:0, `N` = 0 illegal (R76, R79). -/
def decodeN (f : BitVec 2 → Instr) (arg : BitVec 8) : Except DecodeError Instr :=
  if arg.extractLsb' 2 6 = 0 then
    if arg.extractLsb' 0 2 = 0 then .error .gfmtZero else .ok (f (arg.extractLsb' 0 2))
  else .error .argumentBits

/-- Format F: bits 7:1 zero, `F` in bit 0 (R76). -/
def decodeF (f : Bool → Instr) (arg : BitVec 8) : Except DecodeError Instr :=
  if arg.extractLsb' 1 7 = 0 then .ok (f (arg.getLsbD 0)) else .error .argumentBits

/-- The opcode map of R78: the command and its format by opcode. -/
def decodeOpcode (opc arg : BitVec 8) : Except DecodeError Instr :=
  match opc.toNat with
  | 0x01 => decodeZ .pack3 arg
  | 0x02 => decodeZ .pack2 arg
  | 0x03 => decodeZ .pack1 arg
  | 0x04 => decodeZ .unpk4 arg
  | 0x05 => decodeZ .unpk3 arg
  | 0x06 => decodeZ .unpk2 arg
  | 0x08 => decodeL .symat arg
  | 0x09 => decodeL .idxof arg
  | 0x0A => decodeN .gfmt arg
  | 0x0B => decodeF .gval arg
  | 0x10 => decodeZ .encode arg
  | 0x11 => decodeZ .decode arg
  | _ => .error .unassignedOpcode

/-- The command a word is, or why it is none: total on all 32-bit words (R75, R79, R80). -/
def decode (w : Word) : Except DecodeError Instr :=
  if zeroField w = 0 then decodeOpcode (opcodeField w) (argField w) else .error .reservedBits

/-- The bit of `A` (R77). -/
def alphabetBit : Alphabet → BitVec 1
  | .data => 0
  | .padding => 1

/-- The two bits of `L` (R77). -/
def laneBits : Lane → BitVec 2
  | .l0 => 0
  | .l1 => 1
  | .l2 => 2
  | .l3 => 3

/-- The opcode of each command (R78). -/
def opcodeOf : Instr → BitVec 8
  | .pack3 => 0x01
  | .pack2 => 0x02
  | .pack1 => 0x03
  | .unpk4 => 0x04
  | .unpk3 => 0x05
  | .unpk2 => 0x06
  | .symat _ _ => 0x08
  | .idxof _ _ => 0x09
  | .gfmt _ => 0x0A
  | .gval _ => 0x0B
  | .encode => 0x10
  | .decode => 0x11

/-- The argument byte of each command (R76). -/
def argOf : Instr → BitVec 8
  | .symat a l => 0#5 ++ alphabetBit a ++ laneBits l
  | .idxof a l => 0#5 ++ alphabetBit a ++ laneBits l
  | .gfmt n => 0#6 ++ n
  | .gval f => 0#7 ++ BitVec.ofBool f
  | .pack3 | .pack2 | .pack1 | .unpk4 | .unpk3 | .unpk2 => 0
  | .encode | .decode => 0

/-- The word of a command: `OPC : 0x0000 : argument` (R76). -/
def encode (i : Instr) : Word := opcodeOf i ++ 0#16 ++ argOf i

/-- The command the decoder reads from the table word `w` of `nbits` bits; a word is one 32-bit value (R75), so bit k of
the table's numbering is bit k of the word. -/
def decodeTableWord (nbits w : Nat) : Option Instr :=
  match decode (BitVec.ofNat 32 (w % 2 ^ nbits)) with
  | .ok i => some i
  | .error _ => none

end Sys2Proof
end

