-- ==== Sys2Proof/Config.lean ====
section
/-! DEFINITION. Config.lean: the parameters of an implementation (`00_scope.md` R8, R9; `20_memory.md` R58) and
the free values of what the spec leaves unspecified (`10_state.md` R41). -/

namespace Sys2Proof

/-- The open parameters of the hardware, before they are admitted (R8, R58). -/
structure RawConfig where
  /-- `ALPHA_D`, index order (R21). -/
  alphaD : List Symbol
  /-- `ALPHA_P`, index order (R22). -/
  alphaP : List Symbol
  /-- `IBUF_CAP`, in storage units (R8). -/
  ibufCap : Nat
  /-- `OBUF_CAP`, in storage units (R8). -/
  obufCap : Nat
  /-- `IBUF_BASE`, in bytes from the block's base address (R58). -/
  ibufBase : Nat
  /-- `OBUF_BASE`, in bytes from the block's base address (R58). -/
  obufBase : Nat
  deriving DecidableEq, Repr

/-- What a configuration must meet to be admitted: 64 data and 8 padding codes, all 72 pairwise different (R9), the
capacities as R8 and D5 bound them, and an address map in which no offset names two things (R58; the last three
clauses are DEDUCED: R58 gives the ranges and never says what an overlap would mean, log 5). -/
abbrev RawConfig.Admitted (c : RawConfig) : Prop :=
  c.alphaD.length = 64 ∧ c.alphaP.length = 8 ∧ (c.alphaD ++ c.alphaP).Nodup ∧
  1 ≤ c.ibufCap ∧ 12 * ((c.ibufCap + 2) / 3) ≤ c.obufCap ∧ c.obufCap < 2 ^ 32 ∧
  0x1000 ≤ c.ibufBase ∧ 0x1000 ≤ c.obufBase ∧
  (c.ibufBase + c.ibufCap ≤ c.obufBase ∨ c.obufBase + c.obufCap ≤ c.ibufBase)

/-- An admitted configuration: the parameters with the proof that they are well formed, so that the model has no
machine for tables that R9 refuses (`93_implementation_defined.md` U2, log 4). -/
structure Config extends RawConfig where
  admitted : toRawConfig.Admitted
  deriving DecidableEq, Repr

/-- The gate of R9: an ill-formed configuration is refused. -/
def Config.ofRaw (c : RawConfig) : Option Config :=
  if h : c.Admitted then some { c with admitted := h } else none

/-- The defaults of R8, R58 and D4. PRESUMED: the alphabets are `[from general knowledge, not in source]` (log 4). -/
def RawConfig.default : RawConfig :=
  { alphaD := (List.range 64).map fun i => BitVec.ofNat 24 (0xE4B780 + i)
    alphaP := (List.range 8).map fun i => BitVec.ofNat 24 (0xE298B0 + i)
    ibufCap := 3072
    obufCap := 12288
    ibufBase := 0x1000
    obufBase := 0x4000 }

set_option maxRecDepth 10000 in
theorem RawConfig.default_admitted : RawConfig.default.Admitted := by decide

/-- The default configuration (R8, R58, D4): the one `State.reset` carries. -/
def Config.default : Config := { RawConfig.default with admitted := RawConfig.default_admitted }

/-- Free value: what byte lane `k` holds after reset number `n`, until something writes it. R41 says "unspecified" and
R199 forbids substituting any value; DESIGN CHOICE, log 1. -/
opaque Config.unwrittenByte : Nat → Nat → Byte

/-- Free value: what sextet lane `k` holds after reset number `n`, until something writes it (R41, R199); log 1. -/
opaque Config.unwrittenSextet : Nat → Nat → Sextet

/-- Free value: what symbol lane `k` holds after reset number `n`, until something writes it (R41, R199); log 1. -/
opaque Config.unwrittenSymbol : Nat → Nat → Symbol

end Sys2Proof
end

