-- ==== Sys2Proof/Machine/State.lean ====
section
/-! DEFINITION. Machine/State.lean: everything the spec gives the machine (`10_state.md`), why a step can stop, and
the state after reset (R41, R195). -/

namespace Sys2Proof.Machine

/-- A lane register of `w` bits with the mark of R199. -/
structure LaneReg (w : Nat) where
  /-- What the register holds: a free value until something writes it (log 1). -/
  value : BitVec w
  /-- The value is a defined one: it was written since reset, and not by a command whose own result R199 calls undefined
  (log 13). -/
  written : Bool
  deriving DecidableEq, Repr

/-- The contents of a buffer: (unit index, unit) pairs, indices strictly rising; an unlisted unit has never been
written and has no value (R199). -/
abbrev Memory := List Host.Cell

/-- The canonical form of a buffer. No entry can equal what an unlisted unit reads as, since that is no value. -/
abbrev Memory.wf (m : Memory) : Prop := m.Pairwise (fun p q => p.1 < q.1)

/-- One access of the host at its port, or the platform's reset, taken between commands (R20, R58, R195). Offsets are
in bytes from the block's base address; a width other than 8 or 32 can be asked for and is refused (R57). -/
inductive HostEvent where
  /-- Read `width` bits at `offset`. -/
  | read (offset width : Nat)
  /-- Write the low `width` bits of `value` at `offset`. -/
  | write (offset width : Nat) (value : Word)
  /-- The platform applies reset (R195). -/
  | reset
  deriving DecidableEq, Repr

/-- What a host read returned (R52). -/
inductive PortValue where
  /-- A whole register, defined. -/
  | register (v : Word)
  /-- A register that holds no defined value, or a lane view that shows such a lane: the word is there, the spec says
  nothing of it (R199, log 12). -/
  | unspecified (v : Word)
  /-- One storage unit. -/
  | storageUnit (v : Byte)
  deriving DecidableEq, Repr

/-- The state of the block (`10_state.md` R21 to R37), and the model's own record of the host. -/
structure State where
  /-- The ROM and the parameters (R8, R21, R22, R58): nothing writes them. -/
  config : Config
  /-- Byte lanes `B0, B1, B2` (R24). -/
  bytes : Triple (LaneReg 8)
  /-- Sextet lanes `S0 .. S3` (R25). -/
  sextets : Quad (LaneReg 6)
  /-- Symbol lanes `Y0 .. Y3` (R26). -/
  symbols : Quad (LaneReg 24)
  /-- `STATUS.ERR` (R31). -/
  err : BitVec 4
  /-- `STATUS.CNT` (R32). -/
  cnt : BitVec 2
  /-- The mark of R199 on STATUS: what it holds is a defined value, and not left by a command whose result R199 calls
  undefined (log 13). -/
  statusWritten : Bool
  /-- `ILEN` (R33). -/
  ilen : Word
  /-- `OLEN` (R34). -/
  olen : Word
  /-- Input buffer (R36). -/
  ibuf : Memory
  /-- Output buffer (R37). -/
  obuf : Memory
  /-- The MODEL's own: the host events still to be taken, oldest first (log 6). -/
  pending : List HostEvent
  /-- The MODEL's own: what the host's reads returned, newest first (log 7). -/
  returned : List PortValue
  /-- The MODEL's own: how many resets came before, which only picks the free values (log 9). -/
  resets : Nat
  deriving DecidableEq, Repr

/-- Why the machine stops with a fault. -/
inductive Fault where
  /-- Raised by a host access to an offset at which nothing is mapped: 0x28 to 0xFFF, a buffer index at or above the
  capacity, anything outside the three ranges, or a register's offset missed (R57, U8). Safe: the spec gives it no
  meaning and the model stops. -/
  | unmappedAddress (offset : Nat)
  deriving DecidableEq, Repr

/-- Why the model has no transition. -/
inductive Refusal where
  /-- Raised by no meaning: kept for an instruction without one, by its mnemonic. Safe. -/
  | notModelled (mnemonic : String)
  /-- Raised by a host access whose width is not the one R58 lists for the place (R52, R57). Safe. -/
  | wrongWidth (offset width : Nat)
  /-- Raised by a host read of a buffer unit that has never been written (R199). Safe. -/
  | neverWrittenUnit (offset : Nat)
  /-- Raised by ENCODE and DECODE when a unit of the input has never been written (R199). Safe. -/
  | neverWrittenInput
  deriving DecidableEq, Repr

/-- The state after reset number `n` of a block configured as `c`: the table of R41. The unspecified lanes hold free
values and are marked never written (R199, log 1). -/
def State.afterReset (c : Config) (n : Nat) : State :=
  { config := c
    bytes := ⟨⟨Config.unwrittenByte n 0, false⟩, ⟨Config.unwrittenByte n 1, false⟩, ⟨Config.unwrittenByte n 2, false⟩⟩
    sextets := ⟨⟨Config.unwrittenSextet n 0, false⟩, ⟨Config.unwrittenSextet n 1, false⟩,
      ⟨Config.unwrittenSextet n 2, false⟩, ⟨Config.unwrittenSextet n 3, false⟩⟩
    symbols := ⟨⟨Config.unwrittenSymbol n 0, false⟩, ⟨Config.unwrittenSymbol n 1, false⟩,
      ⟨Config.unwrittenSymbol n 2, false⟩, ⟨Config.unwrittenSymbol n 3, false⟩⟩
    err := 0
    cnt := 0
    statusWritten := true
    ilen := 0
    olen := 0
    ibuf := []
    obuf := []
    pending := []
    returned := []
    resets := n }

/-- The machine right after reset (R41, R195), with the default configuration (log 4, log 5). -/
def State.reset : State := State.afterReset Config.default 0

end Sys2Proof.Machine
end

