-- ==== Sys2Proof/Machine/Flags.lean ====
section
/-! DEFINITION. Machine/Flags.lean: the STATUS register's fields (`10_state.md` R30 to R32) and the codes of the error
kinds (`60_exceptions.md` R170). There are no condition codes (R39). -/

namespace Sys2Proof.Machine

/-- The error kinds of R170: the source's five and the three hardware-only ones (R182). -/
inductive ErrorKind where
  | emptyInput
  | unsupportedEncoding
  | excessPadding
  | symbolNotFound
  | internalInconsistency
  | indexRange
  | illegalCommand
  | badLength
  deriving DecidableEq, Repr

/-- The code of a kind in `STATUS.ERR` (R170); 0 is `OK`. -/
def ErrorKind.code : ErrorKind → BitVec 4
  | .emptyInput => 1
  | .unsupportedEncoding => 2
  | .excessPadding => 3
  | .symbolNotFound => 4
  | .internalInconsistency => 5
  | .indexRange => 6
  | .illegalCommand => 7
  | .badLength => 8

/-- A command completes without error: `STATUS.ERR <- 0 ; STATUS.CNT <- n` (R30 to R32); `w` says whether its sources, and so
its result, are defined (R199, log 13). -/
def State.complete (w : Bool) (n : BitVec 2) (s : State) : State := { s with err := 0, cnt := n, statusWritten := w }

/-- STATUS as the host reads it: `ERR` in 3:0, `CNT` in 5:4, zero above (R30). -/
def State.statusWord (s : State) : Word := 0#26 ++ s.cnt ++ s.err

end Sys2Proof.Machine
end

