-- ==== Sys2Proof/Machine/Ops.lean ====
section
/-! DEFINITION. Machine/Ops.lean: the named operations over the buffers and the lanes, and `raise`, the hardware's whole
"trap entry" (`60_exceptions.md` R175). There is no return from it: the next command overwrites STATUS (R177). -/

namespace Sys2Proof.Machine

/-- The unit at index `a`, if anything has written it (R199). -/
def Memory.read : Memory → Nat → Option Byte
  | [], _ => none
  | (k, v) :: m, a => if k = a then some v else Memory.read m a

/-- Write one unit, keeping the indices strictly rising. -/
def Memory.write : Memory → Nat → Byte → Memory
  | [], a, v => [(a, v)]
  | (k, u) :: m, a, v =>
    if a < k then (a, v) :: (k, u) :: m
    else if a = k then (a, v) :: m
    else (k, u) :: Memory.write m a v

/-- The `n` units from index `i` on, if all of them have been written: what `MemRead(IBUF+i, n)` concatenates (R68). -/
def Memory.readUnits (m : Memory) : Nat → Nat → Option (List Byte)
  | _, 0 => some []
  | i, n + 1 =>
    match m.read i, m.readUnits (i + 1) n with
    | some u, some us => some (u :: us)
    | _, _ => none

/-- A buffer that holds exactly the units `us`, from index `i` on (R68). -/
def Memory.ofUnits : Nat → List Byte → Memory
  | _, [] => []
  | i, u :: us => (i, u) :: Memory.ofUnits (i + 1) us

/-- Write all three byte lanes (R24); `w` says whether the values are defined (R199, log 13). -/
def State.setBytes (w : Bool) (v : Triple Byte) (s : State) : State :=
  { s with bytes := ⟨⟨v.l0, w⟩, ⟨v.l1, w⟩, ⟨v.l2, w⟩⟩ }

/-- Write all four sextet lanes (R25); `w` as above. -/
def State.setSextets (w : Bool) (v : Quad Sextet) (s : State) : State :=
  { s with sextets := ⟨⟨v.l0, w⟩, ⟨v.l1, w⟩, ⟨v.l2, w⟩, ⟨v.l3, w⟩⟩ }

/-- Write all four symbol lanes (R26); `w` as above. -/
def State.setSymbols (w : Bool) (v : Quad Symbol) (s : State) : State :=
  { s with symbols := ⟨⟨v.l0, w⟩, ⟨v.l1, w⟩, ⟨v.l2, w⟩, ⟨v.l3, w⟩⟩ }

/-- A destination lane of a command that reports an error: the value stays (R175), as a defined one only if the command's
sources are defined, `w` (R199, log 13). -/
def LaneReg.keep {n : Nat} (w : Bool) (x : LaneReg n) : LaneReg n := ⟨x.value, x.written && w⟩

/-- `keep` for the seven lanes GVAL writes (R159). -/
def State.keepGroup (w : Bool) (s : State) : State :=
  { s with
    bytes := ⟨s.bytes.l0.keep w, s.bytes.l1.keep w, s.bytes.l2.keep w⟩
    sextets := ⟨s.sextets.l0.keep w, s.sextets.l1.keep w, s.sextets.l2.keep w, s.sextets.l3.keep w⟩ }

/-- The output of ENCODE or DECODE: OBUF holds `out` from unit 0 on, OLEN its length; every unit at or above OLEN counts
as never written (R34, R37, R199). -/
def State.setOutput (out : List Byte) (s : State) : State :=
  { s with obuf := Memory.ofUnits 0 out, olen := BitVec.ofNat 32 out.length }

/-- `raise k`: `ERR` gets the code, `CNT` 0, nothing else is written (R175); `w` says whether the sources, and so STATUS, are
defined (R199, log 13). -/
def State.raise (w : Bool) (k : ErrorKind) (s : State) : State := { s with err := k.code, cnt := 0, statusWritten := w }

/-- `raise k` in ENCODE or DECODE: besides, `OLEN <- 0` and every OBUF unit becomes unspecified (R175, R37). -/
def State.raiseBuffer (k : ErrorKind) (s : State) : State := (s.setOutput []).raise true k

/-- What an illegal command word does (R79, R182 b). -/
def execIllegal (s : State) : Host.Outcome State Fault Refusal := .next (s.raise true .illegalCommand)

end Sys2Proof.Machine
end

