-- ==== Sys2Proof/Machine/Operands.lean ====
section
/-! DEFINITION. Machine/Operands.lean: the operand forms (`30_encoding.md` R77): lanes by number, the alphabet
by selector, the first `N` byte lanes. Every data operand comes from a lane, ILEN or IBUF. -/

namespace Sys2Proof

/-- Lane `l` of a file of four (R77). -/
def Quad.get {α : Type} (q : Quad α) : Lane → α
  | .l0 => q.l0
  | .l1 => q.l1
  | .l2 => q.l2
  | .l3 => q.l3

/-- A file of four with lane `l` replaced. -/
def Quad.set {α : Type} (q : Quad α) (l : Lane) (v : α) : Quad α :=
  match l with
  | .l0 => { q with l0 := v }
  | .l1 => { q with l1 := v }
  | .l2 => { q with l2 := v }
  | .l3 => { q with l3 := v }

/-- The table the selector `A` names (R77). -/
def Config.table (c : Config) : Alphabet → List Symbol
  | .data => c.alphaD
  | .padding => c.alphaP

namespace Machine

/-- `B[0], B[1], B[2]` (R11). -/
def State.byteValues (s : State) : Triple Byte := ⟨s.bytes.l0.value, s.bytes.l1.value, s.bytes.l2.value⟩

/-- `S[0] .. S[3]` (R11). -/
def State.sextetValues (s : State) : Quad Sextet :=
  ⟨s.sextets.l0.value, s.sextets.l1.value, s.sextets.l2.value, s.sextets.l3.value⟩

/-- `Y[0] .. Y[3]` (R11). -/
def State.symbolValues (s : State) : Quad Symbol :=
  ⟨s.symbols.l0.value, s.symbols.l1.value, s.symbols.l2.value, s.symbols.l3.value⟩

/-- `S[l] <- v` (R11); `w` says whether the value is defined (R199, log 13). -/
def State.setSextet (l : Lane) (w : Bool) (v : Sextet) (s : State) : State :=
  { s with sextets := s.sextets.set l ⟨v, w⟩ }

/-- `Y[l] <- v` (R11); `w` as above. -/
def State.setSymbol (l : Lane) (w : Bool) (v : Symbol) (s : State) : State :=
  { s with symbols := s.symbols.set l ⟨v, w⟩ }

/-- `keep` for the destination of IDXOF (R104). -/
def State.keepSextet (l : Lane) (w : Bool) (s : State) : State :=
  { s with sextets := s.sextets.set l ((s.sextets.get l).keep w) }

/-- `keep` for the destination of SYMAT (R103). -/
def State.keepSymbol (l : Lane) (w : Bool) (s : State) : State :=
  { s with symbols := s.symbols.set l ((s.symbols.get l).keep w) }

/-- The first `n` byte lanes, those a command packs, all hold defined values (R197, R199). -/
def State.bytesWritten (n : Nat) (s : State) : Bool :=
  s.bytes.l0.written && (decide (n < 2) || s.bytes.l1.written) && (decide (n < 3) || s.bytes.l2.written)

/-- The first `n` sextet lanes (2, 3 or 4), those a command unpacks, all hold defined values (R197, R199). -/
def State.sextetsWritten (n : Nat) (s : State) : Bool :=
  s.sextets.l0.written && s.sextets.l1.written && (decide (n < 3) || s.sextets.l2.written) &&
    (decide (n < 4) || s.sextets.l3.written)

/-- All four symbol lanes hold defined values (R197, R199). -/
def State.symbolsWritten (s : State) : Bool :=
  s.symbols.l0.written && s.symbols.l1.written && s.symbols.l2.written && s.symbols.l3.written

/-- The byte lanes as GFMT takes them: those at index `n` and above count as zero (R139). -/
def firstBytes (n : BitVec 2) (b : Triple Byte) : Triple Byte :=
  ⟨b.l0, if 2 ≤ n.toNat then b.l1 else 0, if n.toNat = 3 then b.l2 else 0⟩

end Machine

end Sys2Proof
end

