-- ==== Sys2Proof/Machine/Alphabets.lean ====
section
/-! DEFINITION. Machine/Alphabets.lean: the alphabet lookups (`40_alphabet.md` R100 to R102) and the commands SYMAT and
IDXOF (R103, R104). Over a source without a defined value both run, as the commands of BitPacker do, and an
error then leaves the destination lane without a defined value too (R199, log 1, log 13). -/

namespace Sys2Proof

/-- `symbolAt`: the entry at an index, none outside the table (R100). -/
def Config.symbolAt (c : Config) (a : Alphabet) (i : Sextet) : Option Symbol := (c.table a)[i.toNat]?

/-- `indexOf`: the index of a symbol in the selected table, none where absent (`SymbolNotFound`, R101). The entries of an
admitted configuration are pairwise different, so which match is found is not observable (U2, U9). -/
def Config.indexOf (c : Config) (a : Alphabet) (y : Symbol) : Option Sextet :=
  ((c.table a).idxOf? y).map (BitVec.ofNat 6)

/-- Membership in the data alphabet (R102). -/
def Config.isData (c : Config) (y : Symbol) : Bool := (c.indexOf .data y).isSome

/-- Membership in the padding alphabet, any of the eight entries (R102). -/
def Config.isPad (c : Config) (y : Symbol) : Bool := (c.indexOf .padding y).isSome

/-- `symbolAt(D, i)`: every sextet is in range of the data alphabet (R100). -/
def Config.dataSymbol (c : Config) (i : Sextet) : Symbol :=
  c.alphaD[i.toNat]'(by have h := c.admitted.1; have := i.isLt; omega)

/-- `symbolAt(P, 0)`, the canonical padding symbol, `PAD_CANON` = 0 (R7, R22). -/
def Config.padSymbol (c : Config) : Symbol := c.alphaP[0]'(by have h := c.admitted.2.1; omega)

namespace Machine

/-- SYMAT `a`, `l`: `Y[l]` gets the entry at index `S[l]`, `IndexRange` where the table has none (R103). -/
def execSymat (a : Alphabet) (l : Lane) (s : State) : Host.Outcome State Fault Refusal :=
  let w := (s.sextets.get l).written
  .next (match s.config.symbolAt a (s.sextetValues.get l) with
    | some y => (s.setSymbol l w y).complete w 0
    | none => (s.keepSymbol l w).raise w .indexRange)

/-- IDXOF `a`, `l`: `S[l]` gets the index of `Y[l]`, `SymbolNotFound` where the table lacks it (R104). -/
def execIdxof (a : Alphabet) (l : Lane) (s : State) : Host.Outcome State Fault Refusal :=
  let w := (s.symbols.get l).written
  .next (match s.config.indexOf a (s.symbolValues.get l) with
    | some i => (s.setSextet l w i).complete w 0
    | none => (s.keepSextet l w).raise w .symbolNotFound)

end Machine

end Sys2Proof
end

