-- ==== Sys2Proof/Machine/BitPacker.lean ====
section
/-! DEFINITION. Machine/BitPacker.lean: the pure functions of the bit packer (`41_bitpacker.md` R110 to R116) and
the six commands PACK3, PACK2, PACK1, UNPK4, UNPK3, UNPK2 (R118 to R123). None of them can report an error. Over a source
without a defined value a command runs on the value the lane holds, and its destination lanes and STATUS are marked
as holding no defined value either (R199, R202, log 1, log 13). -/

namespace Sys2Proof.Machine

/-- The 24-bit big-endian assembly of three bytes (R110). -/
def asm24 (b0 b1 b2 : Byte) : BitVec 24 := b0 ++ b1 ++ b2

/-- A 24-bit value cut into four sextets, most significant first (R111). -/
def sextetsOf (v : BitVec 24) : Quad Sextet :=
  ⟨v.extractLsb' 18 6, v.extractLsb' 12 6, v.extractLsb' 6 6, v.extractLsb' 0 6⟩

/-- Four sextets as one 24-bit value, the first most significant (R112). -/
def joinSextets (s0 s1 s2 s3 : Sextet) : BitVec 24 := s0 ++ s1 ++ s2 ++ s3

/-- A 24-bit value cut into three bytes, most significant first (R112). -/
def bytesOf (v : BitVec 24) : Triple Byte := ⟨v.extractLsb' 16 8, v.extractLsb' 8 8, v.extractLsb' 0 8⟩

/-- `pack3` (R111). -/
def pack3 (b0 b1 b2 : Byte) : Quad Sextet := sextetsOf (asm24 b0 b1 b2)

/-- `unpack4` (R112). -/
def unpack4 (s0 s1 s2 s3 : Sextet) : Triple Byte := bytesOf (joinSextets s0 s1 s2 s3)

/-- `pack1`: the missing bytes count as zero and two sextets are meaningful (R113). -/
def pack1 (b0 : Byte) : Sextet × Sextet := ((pack3 b0 0 0).l0, (pack3 b0 0 0).l1)

/-- `pack2`: the missing byte counts as zero and three sextets are meaningful (R114). -/
def pack2 (b0 b1 : Byte) : Sextet × Sextet × Sextet :=
  ((pack3 b0 b1 0).l0, (pack3 b0 b1 0).l1, (pack3 b0 b1 0).l2)

/-- `unpack2`: one byte from two sextets (R115). -/
def unpack2 (s0 s1 : Sextet) : Byte := (unpack4 s0 s1 0 0).l0

/-- `unpack3`: two bytes from three sextets (R116). -/
def unpack3 (s0 s1 s2 : Sextet) : Byte × Byte := ((unpack4 s0 s1 s2 0).l0, (unpack4 s0 s1 s2 0).l1)

/-- PACK3 (R118). -/
def execPack3 (s : State) : Host.Outcome State Fault Refusal :=
  let b := s.byteValues
  let w := s.bytesWritten 3
  .next ((s.setSextets w (pack3 b.l0 b.l1 b.l2)).complete w 0)

/-- PACK2; `B2` is ignored and `S3` gets 0 (R119, R125). -/
def execPack2 (s : State) : Host.Outcome State Fault Refusal :=
  let t := pack2 s.byteValues.l0 s.byteValues.l1
  let w := s.bytesWritten 2
  .next ((s.setSextets w ⟨t.1, t.2.1, t.2.2, 0⟩).complete w 0)

/-- PACK1; `B1`, `B2` are ignored and `S2`, `S3` get 0 (R120, R125). -/
def execPack1 (s : State) : Host.Outcome State Fault Refusal :=
  let t := pack1 s.byteValues.l0
  let w := s.bytesWritten 1
  .next ((s.setSextets w ⟨t.1, t.2, 0, 0⟩).complete w 0)

/-- UNPK4 (R121). -/
def execUnpk4 (s : State) : Host.Outcome State Fault Refusal :=
  let t := s.sextetValues
  let w := s.sextetsWritten 4
  .next ((s.setBytes w (unpack4 t.l0 t.l1 t.l2 t.l3)).complete w 0)

/-- UNPK3; `S3` is ignored and `B2` gets 0 (R122, R125). -/
def execUnpk3 (s : State) : Host.Outcome State Fault Refusal :=
  let b := unpack3 s.sextetValues.l0 s.sextetValues.l1 s.sextetValues.l2
  let w := s.sextetsWritten 3
  .next ((s.setBytes w ⟨b.1, b.2, 0⟩).complete w 0)

/-- UNPK2; `S2`, `S3` are ignored and `B1`, `B2` get 0 (R123, R125). -/
def execUnpk2 (s : State) : Host.Outcome State Fault Refusal :=
  let w := s.sextetsWritten 2
  .next ((s.setBytes w ⟨unpack2 s.sextetValues.l0 s.sextetValues.l1, 0, 0⟩).complete w 0)

end Sys2Proof.Machine
end

