-- ==== Sys2Proof/Machine/Encoder.lean ====
section
/-! DEFINITION. Machine/Encoder.lean: the encoder (`42_encoder.md` R130 to R138) and the commands GFMT and ENCODE
(R139, R140). -/

namespace Sys2Proof.Machine

/-- `FormatGroup(3, [b0, b1, b2])` (R133). -/
def formatGroup3 (c : Config) (b0 b1 b2 : Byte) : List Symbol :=
  let t := pack3 b0 b1 b2
  [c.dataSymbol t.l0, c.dataSymbol t.l1, c.dataSymbol t.l2, c.dataSymbol t.l3]

/-- `FormatGroup(1, [b0])` (R134). -/
def formatGroup1 (c : Config) (b0 : Byte) : List Symbol :=
  let t := pack1 b0
  [c.dataSymbol t.1, c.dataSymbol t.2, c.padSymbol, c.padSymbol]

/-- `FormatGroup(2, [b0, b1])` (R135). -/
def formatGroup2 (c : Config) (b0 b1 : Byte) : List Symbol :=
  let t := pack2 b0 b1
  [c.dataSymbol t.1, c.dataSymbol t.2.1, c.dataSymbol t.2.2, c.padSymbol]

/-- `Encode(x)`: full triplets from the first byte on, then the remainder of 0, 1 or 2 bytes (R130 to R132). -/
def encodeBytes (c : Config) : List Byte → List Symbol
  | [] => []
  | [b0] => formatGroup1 c b0
  | [b0, b1] => formatGroup2 c b0 b1
  | b0 :: b1 :: b2 :: x => formatGroup3 c b0 b1 b2 ++ encodeBytes c x

/-- The three storage units of a symbol, most significant first (R55, R138). -/
def unitsOfSymbol (y : Symbol) : List Byte := [y.extractLsb' 16 8, y.extractLsb' 8 8, y.extractLsb' 0 8]

/-- The text form of a symbol string (R138). -/
def textOf (ys : List Symbol) : List Byte := ys.flatMap unitsOfSymbol

/-- GFMT `n`: `S` and `Y` get the group of the first `n` byte lanes: `n` + 1 data symbols, then padding (R139). The
term with `n` = 0 is no command and does what an illegal word does (R79, log 11). Sources without defined values: log 1,
log 13. -/
def execGfmt (n : BitVec 2) (s : State) : Host.Outcome State Fault Refusal :=
  let b := firstBytes n s.byteValues
  let t := pack3 b.l0 b.l1 b.l2
  let sext := fun (k : Nat) (v : Sextet) => if k ≤ n.toNat then v else 0
  let sym := fun (k : Nat) (v : Sextet) => if k ≤ n.toNat then s.config.dataSymbol v else s.config.padSymbol
  let w := s.bytesWritten n.toNat
  if n = 0 then execIllegal s
  else .next (((s.setSextets w ⟨sext 0 t.l0, sext 1 t.l1, sext 2 t.l2, sext 3 t.l3⟩).setSymbols w
      ⟨sym 0 t.l0, sym 1 t.l1, sym 2 t.l2, sym 3 t.l3⟩).complete w 0)

/-- ENCODE: the first `ILEN` units of IBUF, encoded, in text form in OBUF; `BadLength` above `IBUF_CAP` (R140). An input
unit that was never written stops the model (R199, log 2, log 3). -/
def execEncode (s : State) : Host.Outcome State Fault Refusal :=
  if s.config.ibufCap < s.ilen.toNat then .next (s.raiseBuffer .badLength)
  else match s.ibuf.readUnits 0 s.ilen.toNat with
    | some x => .next ((s.setOutput (textOf (encodeBytes s.config x))).complete true 0)
    | none => .refused .neverWrittenInput

end Sys2Proof.Machine
end

