-- ==== Sys2Proof/Machine/Decoder.lean ====
section
/-! DEFINITION. Machine/Decoder.lean: the decoder (`43_decoder.md` R145 to R157) and the commands GVAL and DECODE
(R159, R160). -/

namespace Sys2Proof.Machine

/-- The length checks of `Decode`, in order: not empty, whole symbols, whole groups (R146 to R148). -/
def lengthError (len : Nat) : Option ErrorKind :=
  if len = 0 then some .emptyInput
  else if len % 3 ≠ 0 then some .unsupportedEncoding
  else if (len / 3) % 4 ≠ 0 then some .unsupportedEncoding
  else none

/-- The symbol three storage units spell, most significant first (R55, R147). -/
def symbolOfUnits (u0 u1 u2 : Byte) : Symbol := u0 ++ u1 ++ u2

/-- The symbols of a text, `SYM_UNITS` = 3 units each (R147). -/
def symbolsOf : List Byte → List Symbol
  | u0 :: u1 :: u2 :: us => symbolOfUnits u0 u1 u2 :: symbolsOf us
  | _ => []

/-- `paddingCount`: the length of the longest suffix of padding symbols (R149). -/
def paddingCount (c : Config) (ys : List Symbol) : Nat := (ys.reverse.takeWhile c.isPad).length

/-- `ParseGroup(4, [y0, y1, y2, y3])`: the three bytes of a full group, none where a lookup fails (R153). -/
def parseGroup4 (c : Config) (y0 y1 y2 y3 : Symbol) : Option (List Byte) :=
  match c.indexOf .data y0, c.indexOf .data y1, c.indexOf .data y2, c.indexOf .data y3 with
  | some s0, some s1, some s2, some s3 => let b := unpack4 s0 s1 s2 s3; some [b.l0, b.l1, b.l2]
  | _, _, _, _ => none

/-- Every full group of a string, in order; none where a lookup fails (R153). -/
def parseFullGroups (c : Config) : List Symbol → Option (List Byte)
  | y0 :: y1 :: y2 :: y3 :: ys =>
    match parseGroup4 c y0 y1 y2 y3, parseFullGroups c ys with
    | some b, some bs => some (b ++ bs)
    | _, _ => none
  | _ => some []

/-- `ParseGroup(m, ..)` on the `m` symbols that precede the padding of the last group: 3 give two bytes, 2 give one, and
there is no partial group when `m` is 0; none where a lookup fails (R151, R154). -/
def parsePartial (c : Config) : List Symbol → Option (List Byte)
  | [y0, y1, y2] =>
    match c.indexOf .data y0, c.indexOf .data y1, c.indexOf .data y2 with
    | some s0, some s1, some s2 => let b := unpack3 s0 s1 s2; some [b.1, b.2]
    | _, _, _ => none
  | [y0, y1] =>
    match c.indexOf .data y0, c.indexOf .data y1 with
    | some s0, some s1 => some [unpack2 s0 s1]
    | _, _ => none
  | _ => some []

/-- `Decode` after its length checks: at most two trailing padding symbols, then the full groups, then the partial one
(R149 to R154, in the order of R157). -/
def decodeSymbols (c : Config) (ys : List Symbol) : Except ErrorKind (List Byte) :=
  let p := paddingCount c ys
  let q := (ys.length - p) / 4
  if 2 < p then .error .excessPadding
  else match parseFullGroups c (ys.take (4 * q)), parsePartial c ((ys.take (ys.length - p)).drop (4 * q)) with
    | some full, some rest => .ok (full ++ rest)
    | _, _ => .error .symbolNotFound

/-- `Decode(s)` on a string of storage units (R145). -/
def decodeText (c : Config) (us : List Byte) : Except ErrorKind (List Byte) :=
  match lengthError us.length with
  | some k => .error k
  | none => decodeSymbols c (symbolsOf us)

/-- How many trailing symbols of a group are padding, 0 to 4 (R149). -/
def trailingPadding (c : Config) (y : Quad Symbol) : Nat :=
  if c.isPad y.l3 then
    if c.isPad y.l2 then
      if c.isPad y.l1 then
        if c.isPad y.l0 then 4 else 3
      else 2
    else 1
  else 0

/-- The sextet of a data position below `m`, 0 at and above it; none where a lookup fails (R159). -/
def groupSextet (c : Config) (m k : Nat) (y : Symbol) : Option Sextet :=
  if k < m then c.indexOf .data y else some 0

/-- The four sextets of a group with `m` data positions, none where a lookup fails (R159). -/
def groupSextets (c : Config) (m : Nat) (y : Quad Symbol) : Option (Quad Sextet) :=
  match groupSextet c m 0 y.l0, groupSextet c m 1 y.l1, groupSextet c m 2 y.l2, groupSextet c m 3 y.l3 with
  | some s0, some s1, some s2, some s3 => some ⟨s0, s1, s2, s3⟩
  | _, _, _, _ => none

/-- The bytes of a group with `m` data positions; the lanes that carry none get 0 (R159). -/
def groupBytes (m : Nat) (t : Quad Sextet) : Triple Byte :=
  let b := unpack4 t.l0 t.l1 t.l2 t.l3
  ⟨b.l0, if 3 ≤ m then b.l1 else 0, if m = 4 then b.l2 else 0⟩

/-- GVAL `f`: the group in `Y` validated and parsed: too much padding (final groups only) is `ExcessPadding`, a data
position without a data symbol `SymbolNotFound`; else `S`, `B` and `CNT` get its sextets, bytes and byte count
(R159). Sources without defined values: log 1, log 13. -/
def execGval (f : Bool) (s : State) : Host.Outcome State Fault Refusal :=
  let p := if f then trailingPadding s.config s.symbolValues else 0
  let m := 4 - p
  let w := s.symbolsWritten
  .next (if 2 < p then (s.keepGroup w).raise w .excessPadding
    else match groupSextets s.config m s.symbolValues with
      | some t => ((s.setSextets w t).setBytes w (groupBytes m t)).complete w (BitVec.ofNat 2 (m - 1))
      | none => (s.keepGroup w).raise w .symbolNotFound)

/-- DECODE: the first `ILEN` units of IBUF decoded into OBUF, or the error kind (R160). The length is tested before any
unit is looked at (R172, R182 c); an input unit that was never written then stops the model (R199, log 3). -/
def execDecode (s : State) : Host.Outcome State Fault Refusal :=
  if s.config.ibufCap < s.ilen.toNat then .next (s.raiseBuffer .badLength)
  else match lengthError s.ilen.toNat with
    | some k => .next (s.raiseBuffer k)
    | none => match s.ibuf.readUnits 0 s.ilen.toNat with
      | none => .refused .neverWrittenInput
      | some us => match decodeText s.config us with
        | .ok bs => .next ((s.setOutput bs).complete true 0)
        | .error k => .next (s.raiseBuffer k)

end Sys2Proof.Machine
end

