-- ==== Sys2Proof/Machine/Dispatch.lean ====
section
/-! DEFINITION. Machine/Dispatch.lean: one arm per command. -/

namespace Sys2Proof.Machine

def exec (i : Instr) (s : State) : Host.Outcome State Fault Refusal :=
  match i with
  | .pack3 => Sys2Proof.Machine.execPack3 s
  | .pack2 => Sys2Proof.Machine.execPack2 s
  | .pack1 => Sys2Proof.Machine.execPack1 s
  | .unpk4 => Sys2Proof.Machine.execUnpk4 s
  | .unpk3 => Sys2Proof.Machine.execUnpk3 s
  | .unpk2 => Sys2Proof.Machine.execUnpk2 s
  | .symat a l => Sys2Proof.Machine.execSymat a l s
  | .idxof a l => Sys2Proof.Machine.execIdxof a l s
  | .gfmt n => Sys2Proof.Machine.execGfmt n s
  | .gval f => Sys2Proof.Machine.execGval f s
  | .encode => Sys2Proof.Machine.execEncode s
  | .decode => Sys2Proof.Machine.execDecode s

end Sys2Proof.Machine
end

