-- ==== Sys2Proof/Machine/HostPort.lean ====
section
/-! DEFINITION. Machine/HostPort.lean: the host port: the address map (`20_memory.md` R58), the register views
(`10_state.md` R27 to R35), what each access does (R57, R59), and the reset event (R195). -/

namespace Sys2Proof.Machine

/-- The registers of the address map (R58). -/
inductive PortReg where
  | cmd
  | status
  | breg
  | sreg
  | symbol (l : Lane)
  | ilen
  | olen
  deriving DecidableEq, Repr

/-- What an offset names: a register, or the unit of a buffer at an index (R50). -/
inductive PortTarget where
  | reg (r : PortReg)
  | input (i : Nat)
  | output (i : Nat)
  deriving DecidableEq, Repr

/-- The register at an offset below 0x1000 (R58). -/
def regAt : Nat → Option PortReg
  | 0x00 => some .cmd
  | 0x04 => some .status
  | 0x08 => some .breg
  | 0x0C => some .sreg
  | 0x10 => some (.symbol .l0)
  | 0x14 => some (.symbol .l1)
  | 0x18 => some (.symbol .l2)
  | 0x1C => some (.symbol .l3)
  | 0x20 => some .ilen
  | 0x24 => some .olen
  | _ => none

/-- The address map of R58; none where nothing is mapped (R57). -/
def portTarget (c : Config) (offset : Nat) : Option PortTarget :=
  match regAt offset with
  | some r => some (.reg r)
  | none =>
    if c.ibufBase ≤ offset ∧ offset < c.ibufBase + c.ibufCap then some (.input (offset - c.ibufBase))
    else if c.obufBase ≤ offset ∧ offset < c.obufBase + c.obufCap then some (.output (offset - c.obufBase))
    else none

/-- The one width a target admits: 32 bits for a register, 8 for a unit (R52). -/
def PortTarget.width : PortTarget → Nat
  | .reg _ => 32
  | .input _ => 8
  | .output _ => 8

/-- BREG: `B0` in 23:16, `B1` in 15:8, `B2` in 7:0, zero above (R27). -/
def bregWord (b : Triple (LaneReg 8)) : Word := 0#8 ++ b.l0.value ++ b.l1.value ++ b.l2.value

/-- SREG: `S0` in 23:18, `S1` in 17:12, `S2` in 11:6, `S3` in 5:0, zero above (R28). -/
def sregWord (t : Quad (LaneReg 6)) : Word := 0#8 ++ t.l0.value ++ t.l1.value ++ t.l2.value ++ t.l3.value

/-- Yk: the symbol lane in 23:0, zero above (R29). -/
def symbolWord (y : LaneReg 24) : Word := 0#8 ++ y.value

/-- What a host read of a register returns (R58). -/
def regRead (r : PortReg) (s : State) : Word :=
  match r with
  | .cmd => 0
  | .status => s.statusWord
  | .breg => bregWord s.bytes
  | .sreg => sregWord s.sextets
  | .symbol l => symbolWord (s.symbols.get l)
  | .ilen => s.ilen
  | .olen => s.olen

/-- What the register shows is defined, every lane of it (R199; a register read is whole, R56, log 12). -/
def regDefined (r : PortReg) (s : State) : Bool :=
  match r with
  | .breg => s.bytesWritten 3
  | .sreg => s.sextetsWritten 4
  | .symbol l => (s.symbols.get l).written
  | .status => s.statusWritten
  | .cmd | .ilen | .olen => true

/-- The answer to a host read of a register: its word, marked where the spec does not define it (R199, log 12). -/
def regAnswer (r : PortReg) (s : State) : PortValue :=
  if regDefined r s then .register (regRead r s) else .unspecified (regRead r s)

/-- What a host write of a register other than CMD changes (R27 to R30, R33, R34, R59): bits 31:24 of the lane views are
ignored, and so is the whole write of STATUS and OLEN. CMD keeps no value (R35). -/
def regWrite (r : PortReg) (v : Word) (s : State) : State :=
  match r with
  | .breg => s.setBytes true ⟨v.extractLsb' 16 8, v.extractLsb' 8 8, v.extractLsb' 0 8⟩
  | .sreg => s.setSextets true ⟨v.extractLsb' 18 6, v.extractLsb' 12 6, v.extractLsb' 6 6, v.extractLsb' 0 6⟩
  | .symbol l => s.setSymbol l true (v.extractLsb' 0 24)
  | .ilen => { s with ilen := v }
  | .cmd | .status | .olen => s

/-- A value handed back to the host. -/
def State.return (v : PortValue) (s : State) : State := { s with returned := v :: s.returned }

/-- A host read of a mapped target (R58, R59); a buffer unit nothing has written has no value to return
(R199, U6, U7, log 2). -/
def portRead (offset : Nat) (t : PortTarget) (s : State) : Host.Outcome State Fault Refusal :=
  match t with
  | .reg r => .next (s.return (regAnswer r s))
  | .input i =>
    match s.ibuf.read i with
    | some v => .next (s.return (.storageUnit v))
    | none => .refused (.neverWrittenUnit offset)
  | .output i =>
    match s.obuf.read i with
    | some v => .next (s.return (.storageUnit v))
    | none => .refused (.neverWrittenUnit offset)

/-- A host write of a mapped target other than CMD (R58, R59): a write of an OBUF unit is ignored (R37). -/
def portWrite (t : PortTarget) (v : Word) (s : State) : State :=
  match t with
  | .reg r => regWrite r v s
  | .input i => { s with ibuf := s.ibuf.write i (v.extractLsb' 0 8) }
  | .output _ => s

/-- The reset event: the table of R41, the configuration kept; what the host has still to do and has been told is not the
block's and stays (R195, log 9). -/
def State.applyReset (s : State) : State :=
  { State.afterReset s.config (s.resets + 1) with pending := s.pending, returned := s.returned }

/-- What taking one host event comes to: a command word for the core, or an outcome. -/
inductive Fetched where
  | command (w : Word) (s : State)
  | complete (o : Host.Outcome State Fault Refusal)

/-- Take one host event (R57 to R59, R195): a 32-bit write of CMD hands its word to the core (R35). -/
def takeEvent (e : HostEvent) (s : State) : Fetched :=
  match e with
  | .reset => .complete (.next s.applyReset)
  | .read offset width =>
    match portTarget s.config offset with
    | none => .complete (.fault (.unmappedAddress offset))
    | some t => .complete (if t.width = width then portRead offset t s else .refused (.wrongWidth offset width))
  | .write offset width v =>
    match portTarget s.config offset with
    | none => .complete (.fault (.unmappedAddress offset))
    | some t =>
      if t.width = width then
        if t = .reg .cmd then .command v s else .complete (.next (portWrite t v s))
      else .complete (.refused (.wrongWidth offset width))

/-- The next host event of the list; with none left the block is idle and holds its state (R193). -/
def fetch (s : State) : Fetched :=
  match s.pending with
  | [] => .complete (.next s)
  | e :: rest => takeEvent e { s with pending := rest }

/-- The host event by which a command is issued: a 32-bit write of its word at CMD's offset (R35, R58). -/
def commandEvent (w : Word) : HostEvent := .write 0x00 32 w

end Sys2Proof.Machine
end

