-- ==== Sys2Proof/Machine/Step.lean ====
section
/-! DEFINITION. Machine/Step.lean: one step takes one host event (`10_state.md` R20); a command word runs its command to
completion (R35, R60), an illegal one is reported in STATUS (R79). -/

namespace Sys2Proof.Machine

/-- One step of the block and its host. -/
def step (s : State) : Host.Outcome State Fault Refusal :=
  match fetch s with
  | .complete o => o
  | .command w t =>
    match decode w with
    | .ok i => exec i t
    | .error _ => execIllegal t

/-- `s` with the table word `w` of `nbits` bits as the next command the host issues (log 6). -/
def State.withFetchWord (s : State) (nbits w : Nat) : State :=
  { s with pending := commandEvent (BitVec.ofNat 32 (w % 2 ^ nbits)) :: s.pending }

end Sys2Proof.Machine
end

