-- ==== Sys2Proof/Machine/HostProgram.lean ====
section
/-! DEFINITION. Machine/HostProgram.lean: the lines of a host program and the pseudo-instructions (`30_encoding.md` R81,
R82) as data, and the host events they stand for. Their spelling as characters is not modelled (log 16). -/

namespace Sys2Proof.Machine

/-- The offset of a register (R58). -/
def PortReg.offset : PortReg → Nat
  | .cmd => 0x00
  | .status => 0x04
  | .breg => 0x08
  | .sreg => 0x0C
  | .symbol .l0 => 0x10
  | .symbol .l1 => 0x14
  | .symbol .l2 => 0x18
  | .symbol .l3 => 0x1C
  | .ilen => 0x20
  | .olen => 0x24

/-- A line that is one host access (R81). -/
inductive BasicLine where
  /-- `<MNEMONIC> [operands]`: write the command's word to CMD. -/
  | command (i : Instr)
  /-- `WR <reg>, <value>`. -/
  | wr (r : PortReg) (v : Word)
  /-- `WRI <index>, <unit>`: write one unit of IBUF. -/
  | wri (index : Nat) (u : Byte)
  /-- `RD <reg> -> <value>`: read and expect the value. -/
  | rd (r : PortReg) (v : Word)
  /-- `RDO <index> -> <unit>`: read one unit of OBUF and expect it. -/
  | rdo (index : Nat) (u : Byte)
  deriving DecidableEq, Repr

/-- A line of a host program: one access, or a pseudo-instruction (R81, R82). -/
inductive HostLine where
  | basic (l : BasicLine)
  | ldb (b0 b1 b2 : Byte)
  | lds (s0 s1 s2 s3 : Sextet)
  | ldy (y0 y1 y2 y3 : Symbol)
  | ldi (us : List Byte)
  | ldsym (ys : List Symbol)
  | expect (r : PortReg) (v : Word)
  deriving DecidableEq, Repr

/-- `WRI i, u0 ; WRI i+1, u1 ; ..`. -/
def storeUnits : Nat → List Byte → List BasicLine
  | _, [] => []
  | i, u :: us => .wri i u :: storeUnits (i + 1) us

/-- The expansion of `LDI`: the units from index 0 on, then their number to ILEN (R82). -/
def expandLdi (us : List Byte) : List BasicLine := storeUnits 0 us ++ [.wr .ilen (BitVec.ofNat 32 us.length)]

/-- The expansions of R82. -/
def HostLine.expand : HostLine → List BasicLine
  | .basic l => [l]
  | .ldb b0 b1 b2 => [.wr .breg ((b0.setWidth 32 <<< 16) ||| (b1.setWidth 32 <<< 8) ||| b2.setWidth 32)]
  | .lds s0 s1 s2 s3 =>
    [.wr .sreg ((s0.setWidth 32 <<< 18) ||| (s1.setWidth 32 <<< 12) ||| (s2.setWidth 32 <<< 6) ||| s3.setWidth 32)]
  | .ldy y0 y1 y2 y3 =>
    [.wr (.symbol .l0) (y0.setWidth 32), .wr (.symbol .l1) (y1.setWidth 32), .wr (.symbol .l2) (y2.setWidth 32),
      .wr (.symbol .l3) (y3.setWidth 32)]
  | .ldi us => expandLdi us
  | .ldsym ys => expandLdi (textOf ys)
  | .expect r v => [.rd r v]

/-- The lines R81 admits: CMD is no register of the notation, a command is well formed, a buffer index is in range. -/
def BasicLine.legal (c : Config) : BasicLine → Bool
  | .command i => i.wellFormed
  | .wr r _ => r != .cmd
  | .wri index _ => decide (index < c.ibufCap)
  | .rd r _ => r != .cmd
  | .rdo index _ => decide (index < c.obufCap)

/-- The host access a line stands for (R58, R81). -/
def BasicLine.event (c : Config) : BasicLine → HostEvent
  | .command i => commandEvent (encode i)
  | .wr r v => .write r.offset 32 v
  | .wri index u => .write (c.ibufBase + index) 8 (u.setWidth 32)
  | .rd r _ => .read r.offset 32
  | .rdo index _ => .read (c.obufBase + index) 8

/-- What a line expects its access to return, for the lines that read (R81). -/
def BasicLine.expected : BasicLine → Option PortValue
  | .rd _ v => some (.register v)
  | .rdo _ u => some (.storageUnit u)
  | .command _ | .wr _ _ | .wri _ _ => none

/-- The host events of a program, in order (R61, R81). -/
def programEvents (c : Config) (ls : List HostLine) : List HostEvent :=
  (ls.flatMap HostLine.expand).map (BasicLine.event c)

/-- A program placed before whatever the host has still to do (log 6). -/
def State.withProgram (ls : List HostLine) (s : State) : State :=
  { s with pending := programEvents s.config ls ++ s.pending }

end Sys2Proof.Machine
end

