-- ==== Sys2Proof/Safety.lean ====
section
/-! DEFINITION. Safety.lean: which steps run, which of them the spec gives a defined result (`70_reset_and_hazards.md`
R197, R199), and the invariant of the block. -/

namespace Sys2Proof.Machine

/-- Every source the command's rule names holds a defined value, so that its result is defined (R197, R199). A source the
command ignores does not count (R125), nor does the input where its length alone decides (R172, R182 c), nor the term GFMT 0, which reads
nothing (log 11). -/
def sourcesWritten (i : Instr) (s : State) : Bool :=
  match i with
  | .pack3 => s.bytes.l0.written && s.bytes.l1.written && s.bytes.l2.written
  | .pack2 => s.bytes.l0.written && s.bytes.l1.written
  | .pack1 => s.bytes.l0.written
  | .unpk4 => s.sextets.l0.written && s.sextets.l1.written && s.sextets.l2.written && s.sextets.l3.written
  | .unpk3 => s.sextets.l0.written && s.sextets.l1.written && s.sextets.l2.written
  | .unpk2 => s.sextets.l0.written && s.sextets.l1.written
  | .symat _ l => (s.sextets.get l).written
  | .idxof _ l => (s.symbols.get l).written
  | .gfmt n => n == 0 || (s.bytes.l0.written && (decide (n.toNat < 2) || s.bytes.l1.written) &&
      (n != 3 || s.bytes.l2.written))
  | .gval _ => s.symbols.l0.written && s.symbols.l1.written && s.symbols.l2.written && s.symbols.l3.written
  | .encode => decide (s.config.ibufCap < s.ilen.toNat) || (s.ibuf.readUnits 0 s.ilen.toNat).isSome
  | .decode => decide (s.config.ibufCap < s.ilen.toNat) || (lengthError s.ilen.toNat).isSome ||
      (s.ibuf.readUnits 0 s.ilen.toNat).isSome

/-- What a command must find to run: ENCODE and DECODE a value in every unit of the input, unless its length alone decides
(R172, R182 c, R199); the others need nothing, their lanes always hold values (log 1). -/
def inputWritten (i : Instr) (s : State) : Bool :=
  match i with
  | .encode | .decode => sourcesWritten i s
  | .pack3 | .pack2 | .pack1 | .unpk4 | .unpk3 | .unpk2 | .symat _ _ | .idxof _ _ | .gfmt _ | .gval _ => true

/-- What the register at an offset shows is defined: STATUS, and every lane of a lane view (R27 to R30, R199). -/
def viewWritten (offset : Nat) (s : State) : Bool :=
  match offset with
  | 0x04 => s.statusWritten
  | 0x08 => s.bytes.l0.written && s.bytes.l1.written && s.bytes.l2.written
  | 0x0C => s.sextets.l0.written && s.sextets.l1.written && s.sextets.l2.written && s.sextets.l3.written
  | 0x10 => s.symbols.l0.written
  | 0x14 => s.symbols.l1.written
  | 0x18 => s.symbols.l2.written
  | 0x1C => s.symbols.l3.written
  | _ => true

/-- The offsets of the registers (R58). -/
def registerOffsets : List Nat := [0x00, 0x04, 0x08, 0x0C, 0x10, 0x14, 0x18, 0x1C, 0x20, 0x24]

/-- The offset is that of a unit of IBUF (R58). -/
def inInput (c : Config) (offset : Nat) : Bool := decide (c.ibufBase ≤ offset ∧ offset < c.ibufBase + c.ibufCap)

/-- The offset is that of a unit of OBUF (R58). -/
def inOutput (c : Config) (offset : Nat) : Bool := decide (c.obufBase ≤ offset ∧ offset < c.obufBase + c.obufCap)

/-- The host event runs: a reset; an access of a register by 32 bits or of a unit by 8 (R57, R58); a read of a unit only if
it was written (R199); ENCODE and DECODE only over a written input. -/
def eventRuns (e : HostEvent) (s : State) : Bool :=
  match e with
  | .reset => true
  | .read offset width =>
    if offset ∈ registerOffsets then width == 32
    else if inInput s.config offset then width == 8 && (s.ibuf.read (offset - s.config.ibufBase)).isSome
    else inOutput s.config offset && width == 8 && (s.obuf.read (offset - s.config.obufBase)).isSome
  | .write offset width v =>
    if offset ∈ registerOffsets then
      width == 32 && (offset != 0x00 || match decode v with
        | .ok i => inputWritten i s
        | .error _ => true)
    else (inInput s.config offset || inOutput s.config offset) && width == 8

/-- The next step runs: no event to take (R193), or one that runs. -/
def stepRuns (s : State) : Bool :=
  match s.pending with
  | [] => true
  | e :: _ => eventRuns e s

/-- The spec defines all the host event leads to: a reset; an access of a register by 32 bits or of a unit by 8 (R57, R58); a
read only of defined values (R199); a command only with defined sources (R197), where an illegal word has none. -/
def eventSafe (e : HostEvent) (s : State) : Bool :=
  match e with
  | .reset => true
  | .read offset width =>
    if offset ∈ registerOffsets then width == 32 && viewWritten offset s
    else if inInput s.config offset then width == 8 && (s.ibuf.read (offset - s.config.ibufBase)).isSome
    else inOutput s.config offset && width == 8 && (s.obuf.read (offset - s.config.obufBase)).isSome
  | .write offset width v =>
    if offset ∈ registerOffsets then
      width == 32 && (offset != 0x00 || match decode v with
        | .ok i => sourcesWritten i s
        | .error _ => true)
    else (inInput s.config offset || inOutput s.config offset) && width == 8

/-- The spec defines all of the next step's result: no event to take (R193), or one of which it does. -/
def stepSafe (s : State) : Bool :=
  match s.pending with
  | [] => true
  | e :: _ => eventSafe e s

/-- The host event is a command or a host read that names a lane or unit without a defined value (or STATUS, where such a
command left it): what R199, R185, D26 and U7 tell a model to refuse. -/
def eventUndefined (e : HostEvent) (s : State) : Bool :=
  match e with
  | .reset => false
  | .read offset width =>
    (width == 32 && !viewWritten offset s) ||
    (width == 8 && ((inInput s.config offset && (s.ibuf.read (offset - s.config.ibufBase)).isNone) ||
      (inOutput s.config offset && (s.obuf.read (offset - s.config.obufBase)).isNone)))
  | .write offset width v =>
    offset == 0x00 && width == 32 && match decode v with
      | .ok i => !sourcesWritten i s
      | .error _ => false

/-- The step as R199 has a model take it: where the next event names something without a defined value there is no
transition (U7); elsewhere it is `step`, which goes on there with a free value (log 1). -/
def refusingStep (s : State) : Option (Host.Outcome State Fault Refusal) :=
  match s.pending with
  | [] => some (step s)
  | e :: _ => if eventUndefined e s then none else some (step s)

/-- `n` steps, up to the first stop. -/
def run : Nat → State → Host.Outcome State Fault Refusal
  | 0, s => .next s
  | n + 1, s =>
    match step s with
    | .next t => run n t
    | .fault f => .fault f
    | .refused r => .refused r

/-- The values of `STATUS.ERR` a host can ever read (R31). -/
def legalErr (e : BitVec 4) : Bool := [0, 1, 2, 3, 4, 6, 7, 8].contains e

/-- The invariant of the block: the buffers are in canonical form and within their capacities (R36, R37); OBUF has a
value exactly below OLEN (R37, R199), which is within `OBUF_CAP`; `ERR` is a code the hardware produces (R31), and
`CNT` is 0 after any command that ended with an error (R32). -/
structure State.Inv (s : State) : Prop where
  ibufWf : s.ibuf.wf
  obufWf : s.obuf.wf
  ibufBound : ∀ p ∈ s.ibuf, p.1 < s.config.ibufCap
  obufExact : ∀ k, (s.obuf.read k).isSome = true ↔ k < s.olen.toNat
  olenBound : s.olen.toNat ≤ s.config.obufCap
  errLegal : legalErr s.err = true
  cntZero : s.err ≠ 0 → s.cnt = 0

/-- The inputs the command's rule names agree (R24 to R26, R33, R36, R40): the ROM and the parameters, the lanes it reads,
ILEN and the units of IBUF below it. -/
def SameInputs (i : Instr) (s t : State) : Prop :=
  s.config = t.config ∧
  match i with
  | .pack3 => s.byteValues = t.byteValues
  | .pack2 => s.bytes.l0.value = t.bytes.l0.value ∧ s.bytes.l1.value = t.bytes.l1.value
  | .pack1 => s.bytes.l0.value = t.bytes.l0.value
  | .unpk4 => s.sextetValues = t.sextetValues
  | .unpk3 => s.sextets.l0.value = t.sextets.l0.value ∧ s.sextets.l1.value = t.sextets.l1.value ∧
      s.sextets.l2.value = t.sextets.l2.value
  | .unpk2 => s.sextets.l0.value = t.sextets.l0.value ∧ s.sextets.l1.value = t.sextets.l1.value
  | .symat _ l => (s.sextets.get l).value = (t.sextets.get l).value
  | .idxof _ l => (s.symbols.get l).value = (t.symbols.get l).value
  | .gfmt n => s.bytes.l0.value = t.bytes.l0.value ∧ (2 ≤ n.toNat → s.bytes.l1.value = t.bytes.l1.value) ∧
      (n.toNat = 3 → s.bytes.l2.value = t.bytes.l2.value)
  | .gval _ => s.symbolValues = t.symbolValues
  | .encode | .decode => s.ilen = t.ilen ∧ ∀ k, k < s.ilen.toNat → s.ibuf.read k = t.ibuf.read k

/-- What the command writes agrees (R24 to R26, R30, R34, R37, R40): STATUS always; the destination lanes where no error is
reported (an error leaves them alone, R175); OLEN and OBUF for ENCODE and DECODE. -/
def SameResults (i : Instr) (s t : State) : Prop :=
  s.err = t.err ∧ s.cnt = t.cnt ∧ s.statusWritten = t.statusWritten ∧
  match i with
  | .pack3 | .pack2 | .pack1 => s.sextets = t.sextets
  | .unpk4 | .unpk3 | .unpk2 => s.bytes = t.bytes
  | .symat _ l => s.err = 0 → s.symbols.get l = t.symbols.get l
  | .idxof _ l => s.err = 0 → s.sextets.get l = t.sextets.get l
  | .gfmt _ => s.err = 0 → s.sextets = t.sextets ∧ s.symbols = t.symbols
  | .gval _ => s.err = 0 → s.sextets = t.sextets ∧ s.bytes = t.bytes
  | .encode | .decode => s.olen = t.olen ∧ s.obuf = t.obuf

/-- Every lane the command's rule names as a destination holds no defined value (R24 to R26, R199). -/
def DestinationsUndefined (i : Instr) (s : State) : Prop :=
  match i with
  | .pack3 | .pack2 | .pack1 => ∀ l, (s.sextets.get l).written = false
  | .unpk4 | .unpk3 | .unpk2 => s.bytes.l0.written = false ∧ s.bytes.l1.written = false ∧ s.bytes.l2.written = false
  | .symat _ l => (s.symbols.get l).written = false
  | .idxof _ l => (s.sextets.get l).written = false
  | .gfmt _ => ∀ l, (s.sextets.get l).written = false ∧ (s.symbols.get l).written = false
  | .gval _ => (s.bytes.l0.written = false ∧ s.bytes.l1.written = false ∧ s.bytes.l2.written = false) ∧
      ∀ l, (s.sextets.get l).written = false
  | .encode | .decode => True

/-- The state with the same values in all lanes, each marked as defined. -/
def State.markWritten (s : State) : State :=
  ((s.setBytes true s.byteValues).setSextets true s.sextetValues).setSymbols true s.symbolValues

/-- Two lanes that differ at most in a value that is not a defined one. -/
def LaneReg.Alike {w : Nat} (x y : LaneReg w) : Prop := x.written = y.written ∧ (x.written = true → x.value = y.value)

/-- Two answers to a host read that differ at most in a word marked as not defined. -/
def PortValue.Alike (x y : PortValue) : Prop := x = y ∨ ∃ v w, x = .unspecified v ∧ y = .unspecified w

/-- Two states that differ at most in values marked as not defined: of a lane, of STATUS, of an answer to the host (and in how
many resets came before). -/
structure State.Alike (s t : State) : Prop where
  config : s.config = t.config
  byte0 : s.bytes.l0.Alike t.bytes.l0
  byte1 : s.bytes.l1.Alike t.bytes.l1
  byte2 : s.bytes.l2.Alike t.bytes.l2
  sextet : ∀ l, (s.sextets.get l).Alike (t.sextets.get l)
  symbol : ∀ l, (s.symbols.get l).Alike (t.symbols.get l)
  statusMark : s.statusWritten = t.statusWritten
  err : s.statusWritten = true → s.err = t.err
  cnt : s.statusWritten = true → s.cnt = t.cnt
  ilen : s.ilen = t.ilen
  olen : s.olen = t.olen
  ibuf : s.ibuf = t.ibuf
  obuf : s.obuf = t.obuf
  pending : s.pending = t.pending
  returned : List.Forall₂ PortValue.Alike s.returned t.returned

end Sys2Proof.Machine
end

