-- ==== Sys2Proof/Certificates/Slice0/Obligations.lean ====
section
/-! DEFINITION. Certificates/Slice0/Obligations.lean: the statements about the block for the provers. Frames are said by
giving the whole next state: a field that `{ s with .. }` does not name is unchanged, every lane, register and buffer unit
included. A statement of a command's result assumes that its sources hold defined values (`sourcesWritten`, R197, R199); what
the model does where they do not is said by `CommandsRunWhereInputWritten`, `LaneCommandsIgnoreMarks`,
`UndefinedLanesStayMarked` and `UndefinedReadsMarked` (log 1, log 12, log 13), and the refusals R199 asks of a model by
`RefusingStepRefusesNeverWritten`. An OBUF unit at or above OLEN counts as never
written after ENCODE and DECODE (R37, R199, log 10). -/

namespace Sys2Proof.Machine

/-- A word the decoder rejects. -/
def Rejected (w : Word) : Prop := ∃ e, Sys2Proof.decode w = .error e

/-- A word R79 calls illegal: unassigned opcode, a 1 in bits 23:8, a 1 in an argument bit its format shows as 0, or GFMT
with `N` = 0. -/
def IllegalWord (w : Word) : Prop :=
  let opc := w.extractLsb' 24 8
  opc ∉ ([0x01, 0x02, 0x03, 0x04, 0x05, 0x06, 0x08, 0x09, 0x0A, 0x0B, 0x10, 0x11] : List (BitVec 8)) ∨
  w.extractLsb' 8 16 ≠ 0 ∨
  (opc ∈ ([0x01, 0x02, 0x03, 0x04, 0x05, 0x06, 0x10, 0x11] : List (BitVec 8)) ∧ w.extractLsb' 0 8 ≠ 0) ∨
  (opc ∈ ([0x08, 0x09] : List (BitVec 8)) ∧ w.extractLsb' 3 5 ≠ 0) ∨
  (opc = 0x0A ∧ w.extractLsb' 2 6 ≠ 0) ∨ (opc = 0x0B ∧ w.extractLsb' 1 7 ≠ 0) ∨
  (opc = 0x0A ∧ w.extractLsb' 0 2 = 0)

/-- The symbols of a full group of data symbols. -/
def dataGroup (c : Config) (q : Quad Sextet) : List Symbol :=
  [c.dataSymbol q.l0, c.dataSymbol q.l1, c.dataSymbol q.l2, c.dataSymbol q.l3]

/-- The bytes of a full group (R112). -/
def groupTriple (q : Quad Sextet) : List Byte :=
  let v : BitVec 24 := q.l0 ++ q.l1 ++ q.l2 ++ q.l3
  [v.extractLsb' 16 8, v.extractLsb' 8 8, v.extractLsb' 0 8]

/-- The last three symbols of a string of at least three are padding (R150). -/
def EndsInThreePads (c : Config) (ys : List Symbol) : Prop := ∀ y ∈ ys.drop (ys.length - 3), c.isPad y = true

end Sys2Proof.Machine

open Sys2Proof Sys2Proof.Machine

/-! ## Encoding -/

/-- R83: the example words are the commands it names, and its illegal examples are no command. -/
def Obligations.ExampleWordsDecode : Prop :=
  Sys2Proof.decode 0x01000000 = .ok .pack3 ∧ Sys2Proof.decode 0x03000000 = .ok .pack1 ∧
  Sys2Proof.decode 0x08000002 = .ok (.symat .data .l2) ∧ Sys2Proof.decode 0x08000004 = .ok (.symat .padding .l0) ∧
  Sys2Proof.decode 0x09000007 = .ok (.idxof .padding .l3) ∧ Sys2Proof.decode 0x0A000001 = .ok (.gfmt 1) ∧
  Sys2Proof.decode 0x0A000003 = .ok (.gfmt 3) ∧ Sys2Proof.decode 0x0B000000 = .ok (.gval false) ∧
  Sys2Proof.decode 0x0B000001 = .ok (.gval true) ∧ Sys2Proof.decode 0x10000000 = .ok .encode ∧
  Sys2Proof.decode 0x11000000 = .ok .decode ∧
  Rejected 0x00000000 ∧ Rejected 0x0A000000 ∧ Rejected 0x01000001 ∧ Rejected 0x08000008 ∧ Rejected 0x0B000002 ∧
  Rejected 0x10010000 ∧ Rejected 0x07000000

/-- R75 to R79: a word is a command exactly when it is that command's one encoding, and the command is well formed. -/
def Obligations.DecodeExactlyInvertsEncode : Prop :=
  ∀ (w : Word) (i : Instr), Sys2Proof.decode w = .ok i ↔ i.wellFormed = true ∧ Sys2Proof.encode i = w

/-- R78, R77: match and mask of every row select its command, GFMT with `N` ≠ 0; the fields are read where R77 puts
them. -/
def Obligations.MatchAndMaskSelectCommand : Prop :=
  ∀ w : Word,
    (Sys2Proof.decode w = .ok .pack3 ↔ w &&& 0xFFFFFFFF = 0x01000000) ∧
    (Sys2Proof.decode w = .ok .pack2 ↔ w &&& 0xFFFFFFFF = 0x02000000) ∧
    (Sys2Proof.decode w = .ok .pack1 ↔ w &&& 0xFFFFFFFF = 0x03000000) ∧
    (Sys2Proof.decode w = .ok .unpk4 ↔ w &&& 0xFFFFFFFF = 0x04000000) ∧
    (Sys2Proof.decode w = .ok .unpk3 ↔ w &&& 0xFFFFFFFF = 0x05000000) ∧
    (Sys2Proof.decode w = .ok .unpk2 ↔ w &&& 0xFFFFFFFF = 0x06000000) ∧
    ((∃ a l, Sys2Proof.decode w = .ok (.symat a l)) ↔ w &&& 0xFFFFFFF8 = 0x08000000) ∧
    ((∃ a l, Sys2Proof.decode w = .ok (.idxof a l)) ↔ w &&& 0xFFFFFFF8 = 0x09000000) ∧
    ((∃ n, Sys2Proof.decode w = .ok (.gfmt n)) ↔ w &&& 0xFFFFFFFC = 0x0A000000 ∧ w.extractLsb' 0 2 ≠ 0) ∧
    ((∃ f, Sys2Proof.decode w = .ok (.gval f)) ↔ w &&& 0xFFFFFFFE = 0x0B000000) ∧
    (Sys2Proof.decode w = .ok .encode ↔ w &&& 0xFFFFFFFF = 0x10000000) ∧
    (Sys2Proof.decode w = .ok .decode ↔ w &&& 0xFFFFFFFF = 0x11000000) ∧
    (∀ a l, (Sys2Proof.decode w = .ok (.symat a l) ∨ Sys2Proof.decode w = .ok (.idxof a l)) →
      (w.getLsbD 2 = false ↔ a = .data) ∧ (w.getLsbD 2 = true ↔ a = .padding) ∧
      (w.extractLsb' 0 2 = 0 ↔ l = .l0) ∧ (w.extractLsb' 0 2 = 1 ↔ l = .l1) ∧
      (w.extractLsb' 0 2 = 2 ↔ l = .l2) ∧ (w.extractLsb' 0 2 = 3 ↔ l = .l3)) ∧
    (∀ n, Sys2Proof.decode w = .ok (.gfmt n) → n = w.extractLsb' 0 2) ∧
    (∀ f, Sys2Proof.decode w = .ok (.gval f) → f = w.getLsbD 0)

/-- R79: exactly the words it lists are no command, and such a word written to CMD reports `IllegalCommand` and changes
nothing else. -/
def Obligations.IllegalWordsReportedOnly : Prop :=
  ∀ w : Word, (Rejected w ↔ IllegalWord w) ∧
    ∀ (s : State) (rest : List HostEvent), s.pending = .write 0x00 32 w :: rest → IllegalWord w →
      step s = .next { s with pending := rest, err := 7, cnt := 0, statusWritten := true }

/-! ## The step -/

/-- R35, R60: a write of a command's word to CMD runs that command, at the state in which the write has been taken. -/
def Obligations.StepRunsDecodedCommand : Prop :=
  ∀ (s : State) (w : Word) (i : Instr) (rest : List HostEvent), s.pending = .write 0x00 32 w :: rest →
    Sys2Proof.decode w = .ok i → step s = exec i { s with pending := rest }

/-- R193, with the model's own list of host events (log 6): with none left the block holds its state. -/
def Obligations.IdleBlockHoldsState : Prop := ∀ s : State, s.pending = [] → step s = .next s

/-! ## Bit packer -/

/-- R118: PACK3 cuts the triplet into four sextets and writes nothing else but STATUS; SREG then shows what BREG showed. -/
def Obligations.Pack3CutsTriplet : Prop :=
  Sys2Proof.decode 0x01000000 = .ok .pack3 ∧
  ∀ s : State, sourcesWritten .pack3 s = true → ∃ t, exec .pack3 s = .next t ∧
    (let v : BitVec 24 := s.bytes.l0.value ++ s.bytes.l1.value ++ s.bytes.l2.value
     t = { s with
       sextets := ⟨⟨v.extractLsb' 18 6, true⟩, ⟨v.extractLsb' 12 6, true⟩, ⟨v.extractLsb' 6 6, true⟩,
         ⟨v.extractLsb' 0 6, true⟩⟩
       err := 0
       cnt := 0
       statusWritten := true }) ∧
    sregWord t.sextets = bregWord s.bytes

/-- R119: PACK2 packs two bytes with a zero third one, whatever `B2` holds; `S3` and the low two bits of `S2` are 0. -/
def Obligations.Pack2ZeroExtends : Prop :=
  Sys2Proof.decode 0x02000000 = .ok .pack2 ∧
  ∀ s : State, sourcesWritten .pack2 s = true → ∃ t, exec .pack2 s = .next t ∧
    (let v : BitVec 24 := s.bytes.l0.value ++ s.bytes.l1.value ++ 0#8
     t = { s with
       sextets := ⟨⟨v.extractLsb' 18 6, true⟩, ⟨v.extractLsb' 12 6, true⟩, ⟨v.extractLsb' 6 6, true⟩, ⟨0, true⟩⟩
       err := 0
       cnt := 0
       statusWritten := true }) ∧
    t.sextets.l2.value.extractLsb' 0 2 = 0

/-- R120: PACK1 packs one byte with two zero ones, whatever `B1`, `B2` hold; `S2`, `S3` and the low four bits of `S1` are
0. -/
def Obligations.Pack1ZeroExtends : Prop :=
  Sys2Proof.decode 0x03000000 = .ok .pack1 ∧
  ∀ s : State, sourcesWritten .pack1 s = true → ∃ t, exec .pack1 s = .next t ∧
    (let v : BitVec 24 := s.bytes.l0.value ++ 0#8 ++ 0#8
     t = { s with
       sextets := ⟨⟨v.extractLsb' 18 6, true⟩, ⟨v.extractLsb' 12 6, true⟩, ⟨0, true⟩, ⟨0, true⟩⟩
       err := 0
       cnt := 0
       statusWritten := true }) ∧
    t.sextets.l1.value.extractLsb' 0 4 = 0

/-- R121: UNPK4 cuts the four sextets into three bytes and writes nothing else but STATUS; BREG then shows what SREG
showed. -/
def Obligations.Unpk4CutsQuadruplet : Prop :=
  Sys2Proof.decode 0x04000000 = .ok .unpk4 ∧
  ∀ s : State, sourcesWritten .unpk4 s = true → ∃ t, exec .unpk4 s = .next t ∧
    (let v : BitVec 24 := s.sextets.l0.value ++ s.sextets.l1.value ++ s.sextets.l2.value ++ s.sextets.l3.value
     t = { s with
       bytes := ⟨⟨v.extractLsb' 16 8, true⟩, ⟨v.extractLsb' 8 8, true⟩, ⟨v.extractLsb' 0 8, true⟩⟩
       err := 0
       cnt := 0
       statusWritten := true }) ∧
    bregWord t.bytes = sregWord s.sextets

/-- R122: UNPK3 gives two bytes and `B2` = 0; `S3` and the low two bits of `S2` do not matter. -/
def Obligations.Unpk3DropsLowBits : Prop :=
  Sys2Proof.decode 0x05000000 = .ok .unpk3 ∧
  ∀ s : State, sourcesWritten .unpk3 s = true →
    let v : BitVec 24 := s.sextets.l0.value ++ s.sextets.l1.value ++ (s.sextets.l2.value &&& 0x3C) ++ 0#6
    exec .unpk3 s = .next { s with
      bytes := ⟨⟨v.extractLsb' 16 8, true⟩, ⟨v.extractLsb' 8 8, true⟩, ⟨0, true⟩⟩
      err := 0
      cnt := 0
      statusWritten := true }

/-- R123: UNPK2 gives one byte and `B1` = `B2` = 0; `S2`, `S3` and the low four bits of `S1` do not matter. -/
def Obligations.Unpk2DropsLowBits : Prop :=
  Sys2Proof.decode 0x06000000 = .ok .unpk2 ∧
  ∀ s : State, sourcesWritten .unpk2 s = true →
    let v : BitVec 24 := s.sextets.l0.value ++ (s.sextets.l1.value &&& 0x30) ++ 0#6 ++ 0#6
    exec .unpk2 s = .next { s with
      bytes := ⟨⟨v.extractLsb' 16 8, true⟩, ⟨0, true⟩, ⟨0, true⟩⟩
      err := 0
      cnt := 0
      statusWritten := true }

/-- R111, R112: `pack3` and `unpack4` as slices of the 24-bit value, and in their shift-and-mask forms, each sextet seen as
eight bits. -/
def Obligations.ShiftFormsOfPackAndUnpack : Prop :=
  (∀ b0 b1 b2 : Byte,
    (let v : BitVec 24 := b0 ++ b1 ++ b2
     pack3 b0 b1 b2 = ⟨v.extractLsb' 18 6, v.extractLsb' 12 6, v.extractLsb' 6 6, v.extractLsb' 0 6⟩) ∧
    (pack3 b0 b1 b2).l0.setWidth 8 = b0 >>> 2 ∧
    (pack3 b0 b1 b2).l1.setWidth 8 = ((b0 &&& 0x03) <<< 4) ||| (b1 >>> 4) ∧
    (pack3 b0 b1 b2).l2.setWidth 8 = ((b1 &&& 0x0F) <<< 2) ||| (b2 >>> 6) ∧
    (pack3 b0 b1 b2).l3.setWidth 8 = b2 &&& 0x3F) ∧
  (∀ s0 s1 s2 s3 : Sextet,
    (let v : BitVec 24 := s0 ++ s1 ++ s2 ++ s3
     unpack4 s0 s1 s2 s3 = ⟨v.extractLsb' 16 8, v.extractLsb' 8 8, v.extractLsb' 0 8⟩) ∧
    (unpack4 s0 s1 s2 s3).l0 = (s0.setWidth 8 <<< 2) ||| (s1.setWidth 8 >>> 4) ∧
    (unpack4 s0 s1 s2 s3).l1 = ((s1.setWidth 8 &&& 0x0F) <<< 4) ||| (s2.setWidth 8 >>> 2) ∧
    (unpack4 s0 s1 s2 s3).l2 = ((s2.setWidth 8 &&& 0x03) <<< 6) ||| s3.setWidth 8)

/-- R117: the inverse laws (a) to (f), with the exact condition under which (e) and (f) are the identity. -/
def Obligations.PackAndUnpackInverseLaws : Prop :=
  (∀ b0 b1 b2 : Byte, let q := pack3 b0 b1 b2; unpack4 q.l0 q.l1 q.l2 q.l3 = ⟨b0, b1, b2⟩) ∧
  (∀ s0 s1 s2 s3 : Sextet, let b := unpack4 s0 s1 s2 s3; pack3 b.l0 b.l1 b.l2 = ⟨s0, s1, s2, s3⟩) ∧
  (∀ b0 : Byte, unpack2 (pack1 b0).1 (pack1 b0).2 = b0) ∧
  (∀ b0 b1 : Byte, let t := pack2 b0 b1; unpack3 t.1 t.2.1 t.2.2 = (b0, b1)) ∧
  (∀ s0 s1 : Sextet, pack1 (unpack2 s0 s1) = (s0, s1 &&& 0x30) ∧
    (pack1 (unpack2 s0 s1) = (s0, s1) ↔ s1.extractLsb' 0 4 = 0)) ∧
  (∀ s0 s1 s2 : Sextet, let b := unpack3 s0 s1 s2; pack2 b.1 b.2 = (s0, s1, s2 &&& 0x3C) ∧
    (pack2 b.1 b.2 = (s0, s1, s2) ↔ s2.extractLsb' 0 2 = 0))

/-- R125: the lanes a partial command ignores may hold anything, written or not, and it leaves them alone; the lanes of its
destination file that are not meaningful get 0. -/
def Obligations.PartialCommandsIgnoreLanes : Prop :=
  ∀ (s : State) (x y : LaneReg 8) (u v : LaneReg 6),
    (sourcesWritten .pack1 s = true → ∃ t, exec .pack1 s = .next t ∧ t.sextets.l2 = ⟨0, true⟩ ∧ t.sextets.l3 = ⟨0, true⟩ ∧
      exec .pack1 { s with bytes := ⟨s.bytes.l0, x, y⟩ } = .next { t with bytes := ⟨s.bytes.l0, x, y⟩ }) ∧
    (sourcesWritten .pack2 s = true → ∃ t, exec .pack2 s = .next t ∧ t.sextets.l3 = ⟨0, true⟩ ∧
      exec .pack2 { s with bytes := ⟨s.bytes.l0, s.bytes.l1, y⟩ } =
        .next { t with bytes := ⟨s.bytes.l0, s.bytes.l1, y⟩ }) ∧
    (sourcesWritten .unpk2 s = true → ∃ t, exec .unpk2 s = .next t ∧ t.bytes.l1 = ⟨0, true⟩ ∧ t.bytes.l2 = ⟨0, true⟩ ∧
      exec .unpk2 { s with sextets := ⟨s.sextets.l0, s.sextets.l1, u, v⟩ } =
        .next { t with sextets := ⟨s.sextets.l0, s.sextets.l1, u, v⟩ }) ∧
    (sourcesWritten .unpk3 s = true → ∃ t, exec .unpk3 s = .next t ∧ t.bytes.l2 = ⟨0, true⟩ ∧
      exec .unpk3 { s with sextets := ⟨s.sextets.l0, s.sextets.l1, s.sextets.l2, v⟩ } =
        .next { t with sextets := ⟨s.sextets.l0, s.sextets.l1, s.sextets.l2, v⟩ })

/-! ## Alphabets -/

/-- R103: SYMAT writes the entry at index `S[L]` to `Y[L]` and `OK`; with `A` = 1 and `S[L]` >= 8 it reports `IndexRange`
and writes nothing else. With `A` = 0 every index has an entry. -/
def Obligations.SymatLooksUpEntry : Prop :=
  (∀ l, Sys2Proof.decode (0x08000000 ||| (laneBits l).setWidth 32) = .ok (.symat .data l) ∧
    Sys2Proof.decode (0x08000004 ||| (laneBits l).setWidth 32) = .ok (.symat .padding l)) ∧
  ∀ (s : State) (l : Lane), sourcesWritten (.symat .data l) s = true →
    (∃ y, s.config.alphaD[(s.sextets.get l).value.toNat]? = some y ∧
      exec (.symat .data l) s = .next
        { s with symbols := s.symbols.set l ⟨y, true⟩, err := 0, cnt := 0, statusWritten := true }) ∧
    ((s.sextets.get l).value.toNat < 8 → ∃ y, s.config.alphaP[(s.sextets.get l).value.toNat]? = some y ∧
      exec (.symat .padding l) s = .next
        { s with symbols := s.symbols.set l ⟨y, true⟩, err := 0, cnt := 0, statusWritten := true }) ∧
    (8 ≤ (s.sextets.get l).value.toNat → exec (.symat .padding l) s = .next
        { s with err := 6, cnt := 0, statusWritten := true })

/-- R104: IDXOF writes the index of `Y[L]` in the selected alphabet to `S[L]` and `OK`; where the alphabet lacks the symbol
it reports `SymbolNotFound` and writes nothing else. -/
def Obligations.IdxofFindsIndex : Prop :=
  (∀ l, Sys2Proof.decode (0x09000000 ||| (laneBits l).setWidth 32) = .ok (.idxof .data l) ∧
    Sys2Proof.decode (0x09000004 ||| (laneBits l).setWidth 32) = .ok (.idxof .padding l)) ∧
  ∀ (s : State) (a : Alphabet) (l : Lane), sourcesWritten (.idxof a l) s = true →
    (∀ i : Sextet, (s.config.table a)[i.toNat]? = some (s.symbols.get l).value →
      exec (.idxof a l) s = .next
        { s with sextets := s.sextets.set l ⟨i, true⟩, err := 0, cnt := 0, statusWritten := true }) ∧
    ((s.symbols.get l).value ∉ s.config.table a → exec (.idxof a l) s = .next
        { s with err := 4, cnt := 0, statusWritten := true })

/-- R101: `indexOf` finds the index with `symbolAt(a, i) = y`, the only one there is, and fails where there is none; a symbol
of one alphabet is not found in the other. -/
def Obligations.IndexOfInvertsSymbolAt : Prop :=
  ∀ c : Config,
    (∀ (a : Alphabet) (y : Symbol) (i : Sextet), c.indexOf a y = some i ↔ c.symbolAt a i = some y) ∧
    (∀ (a : Alphabet) (y : Symbol), c.indexOf a y = none ↔ ∀ i, c.symbolAt a i ≠ some y) ∧
    (∀ (j : Sextet) (y : Symbol), c.symbolAt .padding j = some y → c.indexOf .data y = none) ∧
    (∀ (i : Sextet) (y : Symbol), c.symbolAt .data i = some y → c.indexOf .padding y = none)

/-- R102: membership is the success of the lookup, no code is in both alphabets, and all eight padding entries are padding,
not only the canonical one. -/
def Obligations.AlphabetsAreDisjoint : Prop :=
  ∀ c : Config,
    (∀ y, c.isData y = true ↔ y ∈ c.alphaD) ∧ (∀ y, c.isPad y = true ↔ y ∈ c.alphaP) ∧
    (∀ y, ¬ (c.isData y = true ∧ c.isPad y = true)) ∧
    (∀ j : Nat, j < 8 → ∃ y, c.alphaP[j]? = some y ∧ c.isPad y = true)

/-! ## Encoder -/

/-- R133, R134, R135: what the three forms of `FormatGroup` look up, and the canonical padding symbol they append. -/
def Obligations.FormatGroupLooksUpAndPads : Prop :=
  ∀ (c : Config) (b0 b1 b2 : Byte),
    (let v : BitVec 24 := b0 ++ b1 ++ b2
     (formatGroup3 c b0 b1 b2).map some =
       [c.alphaD[(v.extractLsb' 18 6).toNat]?, c.alphaD[(v.extractLsb' 12 6).toNat]?,
        c.alphaD[(v.extractLsb' 6 6).toNat]?, c.alphaD[(v.extractLsb' 0 6).toNat]?]) ∧
    (let v : BitVec 24 := b0 ++ 0#8 ++ 0#8
     (formatGroup1 c b0).map some =
       [c.alphaD[(v.extractLsb' 18 6).toNat]?, c.alphaD[(v.extractLsb' 12 6).toNat]?, c.alphaP[0]?, c.alphaP[0]?]) ∧
    (let v : BitVec 24 := b0 ++ b1 ++ 0#8
     (formatGroup2 c b0 b1).map some =
       [c.alphaD[(v.extractLsb' 18 6).toNat]?, c.alphaD[(v.extractLsb' 12 6).toNat]?,
        c.alphaD[(v.extractLsb' 6 6).toNat]?, c.alphaP[0]?])

/-- R130: `Encode(x)` is the concatenation of the groups of its `q = floor(n/3)` triplets and of its remainder. -/
def Obligations.EncodeConcatenatesGroups : Prop :=
  ∀ (c : Config) (x : List Byte),
    encodeBytes c x =
      (List.range (x.length / 3)).flatMap
        (fun g => formatGroup3 c (x.getD (3 * g) 0) (x.getD (3 * g + 1) 0) (x.getD (3 * g + 2) 0)) ++
      (if x.length % 3 = 0 then []
       else if x.length % 3 = 1 then formatGroup1 c (x.getD (3 * (x.length / 3)) 0)
       else formatGroup2 c (x.getD (3 * (x.length / 3)) 0) (x.getD (3 * (x.length / 3) + 1) 0))

/-- R137: `Encode(x)` has 4 ceil(n/3) symbols: data symbols, then 0, 2 or 1 copies of `P(0)` as n mod 3 is 0, 1, 2; in the
last data symbol of a partial group the low 4 or 2 bits of the sextet are zero. -/
def Obligations.EncodedStringShape : Prop :=
  ∀ (c : Config) (x : List Byte),
    ∃ (ts : List Sextet) (p : Nat),
      encodeBytes c x = ts.map c.dataSymbol ++ List.replicate p c.padSymbol ∧
      ts.length + p = 4 * ((x.length + 2) / 3) ∧
      p = (if x.length % 3 = 0 then 0 else if x.length % 3 = 1 then 2 else 1) ∧
      (x.length % 3 = 1 → ∃ t, ts.getLast? = some t ∧ t.extractLsb' 0 4 = 0) ∧
      (x.length % 3 = 2 → ∃ t, ts.getLast? = some t ∧ t.extractLsb' 0 2 = 0)

/-- R136: group g of the output depends on input bytes 3g to 3g+2 alone (as many of them as there are), and not on g. -/
def Obligations.OutputGroupsIndependent : Prop :=
  ∀ (c : Config) (x y : List Byte) (g h : Nat),
    (∀ k, k < 3 → x[3 * g + k]? = y[3 * h + k]?) →
    ∀ j, j < 4 → (encodeBytes c x)[4 * g + j]? = (encodeBytes c y)[4 * h + j]?

/-- R55: symbol k of a string occupies units 3k to 3k+2, most significant first, and `MemRead` of three units gives the
symbol back. -/
def Obligations.SymbolUnitsMostSignificantFirst : Prop :=
  (∀ (ys : List Symbol) (k : Nat),
    (textOf ys)[3 * k]? = ys[k]?.map (fun y => y.extractLsb' 16 8) ∧
    (textOf ys)[3 * k + 1]? = ys[k]?.map (fun y => y.extractLsb' 8 8) ∧
    (textOf ys)[3 * k + 2]? = ys[k]?.map (fun y => y.extractLsb' 0 8)) ∧
  ∀ ys : List Symbol, symbolsOf (textOf ys) = ys

/-- R139: GFMT `N` leaves the group of the first `N` byte lanes in `S` and `Y`: `N` + 1 data symbols, then padding symbols;
byte lanes at `N` and above do not matter, and `S` ends as the pack command of that size leaves it. -/
def Obligations.GfmtFormatsGroup : Prop :=
  (Sys2Proof.decode 0x0A000001 = .ok (.gfmt 1) ∧ Sys2Proof.decode 0x0A000002 = .ok (.gfmt 2) ∧
    Sys2Proof.decode 0x0A000003 = .ok (.gfmt 3) ∧ Rejected 0x0A000000) ∧
  ∀ (s : State), let D := s.config.dataSymbol; let P := s.config.padSymbol
    (sourcesWritten (.gfmt 3) s = true → ∃ t, exec (.gfmt 3) s = .next t ∧
      (∃ u, exec .pack3 s = .next u ∧ u.sextets = t.sextets) ∧
      (let v : BitVec 24 := s.bytes.l0.value ++ s.bytes.l1.value ++ s.bytes.l2.value
       t = { s with
         sextets := ⟨⟨v.extractLsb' 18 6, true⟩, ⟨v.extractLsb' 12 6, true⟩, ⟨v.extractLsb' 6 6, true⟩,
           ⟨v.extractLsb' 0 6, true⟩⟩
         symbols := ⟨⟨D (v.extractLsb' 18 6), true⟩, ⟨D (v.extractLsb' 12 6), true⟩, ⟨D (v.extractLsb' 6 6), true⟩,
           ⟨D (v.extractLsb' 0 6), true⟩⟩
         err := 0
         cnt := 0
         statusWritten := true })) ∧
    (sourcesWritten (.gfmt 2) s = true → ∃ t, exec (.gfmt 2) s = .next t ∧
      (∃ u, exec .pack2 s = .next u ∧ u.sextets = t.sextets) ∧
      (let v : BitVec 24 := s.bytes.l0.value ++ s.bytes.l1.value ++ 0#8
       t = { s with
         sextets := ⟨⟨v.extractLsb' 18 6, true⟩, ⟨v.extractLsb' 12 6, true⟩, ⟨v.extractLsb' 6 6, true⟩, ⟨0, true⟩⟩
         symbols := ⟨⟨D (v.extractLsb' 18 6), true⟩, ⟨D (v.extractLsb' 12 6), true⟩, ⟨D (v.extractLsb' 6 6), true⟩,
           ⟨P, true⟩⟩
         err := 0
         cnt := 0
         statusWritten := true })) ∧
    (sourcesWritten (.gfmt 1) s = true → ∃ t, exec (.gfmt 1) s = .next t ∧
      (∃ u, exec .pack1 s = .next u ∧ u.sextets = t.sextets) ∧
      (let v : BitVec 24 := s.bytes.l0.value ++ 0#8 ++ 0#8
       t = { s with
         sextets := ⟨⟨v.extractLsb' 18 6, true⟩, ⟨v.extractLsb' 12 6, true⟩, ⟨0, true⟩, ⟨0, true⟩⟩
         symbols := ⟨⟨D (v.extractLsb' 18 6), true⟩, ⟨D (v.extractLsb' 12 6), true⟩, ⟨P, true⟩, ⟨P, true⟩⟩
         err := 0
         cnt := 0
         statusWritten := true }))

/-- The ill-formed term GFMT 0, which no word decodes to, does what R79 says of its word (the model's choice, log 11). -/
def Obligations.GfmtZeroActsAsIllegalWord : Prop :=
  ∀ s : State, exec (.gfmt 0) s = .next { s with err := 7, cnt := 0, statusWritten := true }

/-- R140, R37, R199: ENCODE of a written input that fits writes the text of `Encode` of it to OBUF, its length,
12 ceil(n/3), to OLEN, and `OK`; with ILEN above `IBUF_CAP` it reports `BadLength` and OLEN = 0. OBUF has no value at and
above OLEN (log 10). Nothing else changes. -/
def Obligations.EncodeWritesTextOfInput : Prop :=
  Sys2Proof.decode 0x10000000 = .ok .encode ∧
  ∀ s : State,
    (∀ x : List Byte, x.length = s.ilen.toNat → s.ilen.toNat ≤ s.config.ibufCap →
      (∀ k, k < x.length → s.ibuf.read k = x[k]?) →
      ∃ t, exec .encode s = .next t ∧
        (∀ k, t.obuf.read k = (textOf (encodeBytes s.config x))[k]?) ∧
        t.olen.toNat = 12 * ((x.length + 2) / 3) ∧
        t = { s with obuf := t.obuf, olen := t.olen, err := 0, cnt := 0, statusWritten := true }) ∧
    (s.config.ibufCap < s.ilen.toNat →
      exec .encode s = .next { s with obuf := [], olen := 0, err := 8, cnt := 0, statusWritten := true })

/-! ## Decoder -/

/-- R149: `paddingCount` is the length of the longest suffix whose symbols are all padding. -/
def Obligations.PaddingCountIsLongestSuffix : Prop :=
  ∀ (c : Config) (ys : List Symbol) (p : Nat), paddingCount c ys = p ↔
    p ≤ ys.length ∧ (∀ y ∈ ys.drop (ys.length - p), c.isPad y = true) ∧
    ∀ q, q ≤ ys.length → (∀ y ∈ ys.drop (ys.length - q), c.isPad y = true) → q ≤ p

/-- R146 to R150, R157: the checks of `Decode` in their order; the first that fails decides the kind, and a string that
passes all of them gives as many bytes as R152 says. -/
def Obligations.DecodeChecksInOrder : Prop :=
  ∀ (c : Config) (us : List Byte),
    (us.length = 0 → decodeText c us = .error .emptyInput) ∧
    (us.length ≠ 0 → (us.length % 3 ≠ 0 ∨ (us.length / 3) % 4 ≠ 0) → decodeText c us = .error .unsupportedEncoding) ∧
    (us.length ≠ 0 → us.length % 12 = 0 →
      (EndsInThreePads c (symbolsOf us) → decodeText c us = .error .excessPadding) ∧
      (¬ EndsInThreePads c (symbolsOf us) →
        ((∃ y ∈ (symbolsOf us).take (us.length / 3 - paddingCount c (symbolsOf us)), c.isData y = false) →
          decodeText c us = .error .symbolNotFound) ∧
        ((∀ y ∈ (symbolsOf us).take (us.length / 3 - paddingCount c (symbolsOf us)), c.isData y = true) →
          ∃ bs, decodeText c us = .ok bs ∧
            bs.length = (us.length / 3 - paddingCount c (symbolsOf us)) / 4 * 3 +
              (if paddingCount c (symbolsOf us) = 0 then 0 else 4 - paddingCount c (symbolsOf us) - 1))))

/-- R153, R154, R158: full groups of data symbols give their triplets in order; then, for a partial group, two data symbols
and any two padding entries give one byte, three and any one give two, the low bits of the last sextet discarded. -/
def Obligations.DecodeRebuildsBytes : Prop :=
  ∀ (c : Config) (gs : List (Quad Sextet)) (s0 s1 s2 : Sextet) (y z : Symbol),
    c.isPad y = true → c.isPad z = true →
    (gs ≠ [] → decodeText c (textOf (gs.flatMap (dataGroup c))) = .ok (gs.flatMap groupTriple)) ∧
    decodeText c (textOf (gs.flatMap (dataGroup c) ++ [c.dataSymbol s0, c.dataSymbol s1, y, z])) =
      .ok (gs.flatMap groupTriple ++ [(s0.setWidth 8 <<< 2) ||| (s1.setWidth 8 >>> 4)]) ∧
    decodeText c (textOf (gs.flatMap (dataGroup c) ++ [c.dataSymbol s0, c.dataSymbol s1, c.dataSymbol s2, y])) =
      .ok (gs.flatMap groupTriple ++ [(s0.setWidth 8 <<< 2) ||| (s1.setWidth 8 >>> 4),
        ((s1.setWidth 8 &&& 0x0F) <<< 4) ||| (s2.setWidth 8 >>> 2)])

/-- R161: `Decode` of the text of `Encode(x)` is `x` for every byte sequence but the empty one, whose text is
`EmptyInput`. -/
def Obligations.DecodeInvertsEncode : Prop :=
  ∀ (c : Config) (x : List Byte),
    (x ≠ [] → decodeText c (textOf (encodeBytes c x)) = .ok x) ∧
    (x = [] → decodeText c (textOf (encodeBytes c x)) = .error .emptyInput)

/-- R161 and L1-10 in hardware: ENCODE, the output copied to the input of a block of the same configuration, DECODE: the
bytes come back, whenever the text fits IBUF. -/
def Obligations.EncodeCopyDecodeRestoresInput : Prop :=
  ∀ (s t u : State) (x : List Byte), x ≠ [] → x.length = s.ilen.toNat →
    (∀ k, k < x.length → s.ibuf.read k = x[k]?) → 12 * ((x.length + 2) / 3) ≤ s.config.ibufCap →
    exec .encode s = .next t →
    u.config = s.config → u.ilen = t.olen → (∀ k, k < t.olen.toNat → u.ibuf.read k = t.obuf.read k) →
    ∃ v, exec .decode u = .next v ∧ v.err = 0 ∧ v.cnt = 0 ∧ v.olen.toNat = x.length ∧
      ∀ k, v.obuf.read k = x[k]?

/-- R160, R37, R199: DECODE of a written input that fits writes what `Decode` answers to OBUF, its length to OLEN, and `OK`,
or reports the error kind with OLEN = 0; OBUF has no value at and above OLEN (log 10). `BadLength` and the length errors
need no unit of the input. Nothing else changes. -/
def Obligations.DecodeWritesBytesOrReports : Prop :=
  Sys2Proof.decode 0x11000000 = .ok .decode ∧
  ∀ s : State,
    (s.config.ibufCap < s.ilen.toNat →
      exec .decode s = .next { s with obuf := [], olen := 0, err := 8, cnt := 0, statusWritten := true }) ∧
    (s.ilen = 0 → exec .decode s = .next
        { s with obuf := [], olen := 0, err := 1, cnt := 0, statusWritten := true }) ∧
    (s.ilen.toNat ≤ s.config.ibufCap → s.ilen ≠ 0 → s.ilen.toNat % 12 ≠ 0 →
      exec .decode s = .next { s with obuf := [], olen := 0, err := 2, cnt := 0, statusWritten := true }) ∧
    (∀ us : List Byte, us.length = s.ilen.toNat → s.ilen.toNat ≤ s.config.ibufCap →
      (∀ k, k < us.length → s.ibuf.read k = us[k]?) →
      (∀ bs, decodeText s.config us = .ok bs → ∃ t, exec .decode s = .next t ∧
        (∀ k, t.obuf.read k = bs[k]?) ∧ t.olen.toNat = bs.length ∧
        t = { s with obuf := t.obuf, olen := t.olen, err := 0, cnt := 0, statusWritten := true }) ∧
      (∀ k, decodeText s.config us = .error k →
        exec .decode s = .next { s with obuf := [], olen := 0, err := k.code, cnt := 0, statusWritten := true }))

/-- R159: GVAL on a group of data symbols, of three and one padding entry, of two and two: the sextets, the bytes and the
byte count; lanes that carry nothing get 0 and nothing else changes. -/
def Obligations.GvalParsesGroup : Prop :=
  (Sys2Proof.decode 0x0B000000 = .ok (.gval false) ∧ Sys2Proof.decode 0x0B000001 = .ok (.gval true)) ∧
  ∀ (s : State) (s0 s1 s2 s3 : Sextet), sourcesWritten (.gval true) s = true →
    let D := s.config.dataSymbol; let c := s.config
    (∀ f, s.symbolValues = ⟨D s0, D s1, D s2, D s3⟩ →
      (let v : BitVec 24 := s0 ++ s1 ++ s2 ++ s3
       exec (.gval f) s = .next { s with
         sextets := ⟨⟨s0, true⟩, ⟨s1, true⟩, ⟨s2, true⟩, ⟨s3, true⟩⟩
         bytes := ⟨⟨v.extractLsb' 16 8, true⟩, ⟨v.extractLsb' 8 8, true⟩, ⟨v.extractLsb' 0 8, true⟩⟩
         err := 0
         cnt := 3
         statusWritten := true })) ∧
    (∀ y, c.isPad y = true → s.symbolValues = ⟨D s0, D s1, D s2, y⟩ →
      (let v : BitVec 24 := s0 ++ s1 ++ s2 ++ 0#6
       exec (.gval true) s = .next { s with
         sextets := ⟨⟨s0, true⟩, ⟨s1, true⟩, ⟨s2, true⟩, ⟨0, true⟩⟩
         bytes := ⟨⟨v.extractLsb' 16 8, true⟩, ⟨v.extractLsb' 8 8, true⟩, ⟨0, true⟩⟩
         err := 0
         cnt := 2
         statusWritten := true })) ∧
    (∀ y z, c.isPad y = true → c.isPad z = true → s.symbolValues = ⟨D s0, D s1, y, z⟩ →
      (let v : BitVec 24 := s0 ++ s1 ++ 0#6 ++ 0#6
       exec (.gval true) s = .next { s with
         sextets := ⟨⟨s0, true⟩, ⟨s1, true⟩, ⟨0, true⟩, ⟨0, true⟩⟩
         bytes := ⟨⟨v.extractLsb' 16 8, true⟩, ⟨0, true⟩, ⟨0, true⟩⟩
         err := 0
         cnt := 1
         statusWritten := true }))

/-- R159, R173, R174: GVAL of a final group reports `ExcessPadding` when `Y1`, `Y2`, `Y3` are padding, before any lookup;
otherwise, and for inner groups always, a symbol in a data position that is no data symbol gives `SymbolNotFound`;
nothing but STATUS changes. -/
def Obligations.GvalReportsBadGroups : Prop :=
  ∀ s : State, sourcesWritten (.gval true) s = true → let c := s.config; let y := s.symbolValues
    ((c.isPad y.l1 = true ∧ c.isPad y.l2 = true ∧ c.isPad y.l3 = true) →
      exec (.gval true) s = .next { s with err := 3, cnt := 0, statusWritten := true }) ∧
    (¬ (c.isPad y.l1 = true ∧ c.isPad y.l2 = true ∧ c.isPad y.l3 = true) →
      (c.isData y.l0 = false ∨ c.isData y.l1 = false ∨ (c.isData y.l2 = false ∧
        ¬ (c.isPad y.l2 = true ∧ c.isPad y.l3 = true)) ∨ (c.isData y.l3 = false ∧ c.isPad y.l3 = false)) →
      exec (.gval true) s = .next { s with err := 4, cnt := 0, statusWritten := true }) ∧
    ((c.isData y.l0 = false ∨ c.isData y.l1 = false ∨ c.isData y.l2 = false ∨ c.isData y.l3 = false) →
      exec (.gval false) s = .next { s with err := 4, cnt := 0, statusWritten := true })

/-- R159: GVAL FINAL gives the bytes, or the error kind, of `Decode` of the four-symbol string `Y0 Y1 Y2 Y3`. -/
def Obligations.GvalFinalEqualsDecode : Prop :=
  ∀ s : State, sourcesWritten (.gval true) s = true → let y := s.symbolValues
    (∀ bs, decodeText s.config (textOf [y.l0, y.l1, y.l2, y.l3]) = .ok bs →
      ∃ t, exec (.gval true) s = .next t ∧ t.err = 0 ∧ t.cnt.toNat = bs.length ∧
        [t.bytes.l0.value, t.bytes.l1.value, t.bytes.l2.value] = bs ++ List.replicate (3 - bs.length) 0) ∧
    (∀ k, decodeText s.config (textOf [y.l0, y.l1, y.l2, y.l3]) = .error k →
      exec (.gval true) s = .next { s with err := k.code, cnt := 0, statusWritten := true })

/-! ## Errors, frames, purity -/

/-- R175: a command that reports an error has written STATUS and nothing else, ENCODE and DECODE besides OLEN = 0 and an OBUF
without values. Where a source held no defined value, the marks of its destination lanes may change, no value does
(log 13). -/
def Obligations.ErrorWritesStatusOnly : Prop :=
  ∀ (i : Instr) (s t : State), exec i s = .next t → t.err ≠ 0 →
    ((i ≠ .encode ∧ i ≠ .decode) →
      t = { s with
        err := t.err
        cnt := 0
        statusWritten := sourcesWritten i s
        bytes := t.bytes
        sextets := t.sextets
        symbols := t.symbols } ∧
      t.byteValues = s.byteValues ∧ t.sextetValues = s.sextetValues ∧ t.symbolValues = s.symbolValues ∧
      (sourcesWritten i s = true → t.bytes = s.bytes ∧ t.sextets = s.sextets ∧ t.symbols = s.symbols)) ∧
    ((i = .encode ∨ i = .decode) →
      t = { s with err := t.err, cnt := 0, statusWritten := true, olen := 0, obuf := [] })

/-- R181: which kinds each command can report; an illegal word reports `IllegalCommand` only. -/
def Obligations.KindsEachCommandReports : Prop :=
  (∀ s t : State, execIllegal s = .next t → t.err = 7) ∧
  ∀ (i : Instr) (s t : State), i.wellFormed = true → exec i s = .next t →
    match i with
    | .pack3 | .pack2 | .pack1 | .unpk4 | .unpk3 | .unpk2 | .gfmt _ => t.err = 0
    | .symat _ _ => t.err = 0 ∨ t.err = 6
    | .idxof _ _ => t.err = 0 ∨ t.err = 4
    | .gval _ => t.err = 0 ∨ t.err = 3 ∨ t.err = 4
    | .encode => t.err = 0 ∨ t.err = 8
    | .decode => t.err = 0 ∨ t.err = 8 ∨ t.err = 1 ∨ t.err = 2 ∨ t.err = 3 ∨ t.err = 4

/-- R180: no command, in any state, leaves code 5 (`InternalInconsistency`) in `STATUS.ERR`. -/
def Obligations.NoInternalInconsistency : Prop := ∀ (i : Instr) (s t : State), exec i s = .next t → t.err ≠ 5

/-- R24 to R26, R33, R34, R36: no command writes ILEN, IBUF, the ROM or the host's record; only ENCODE and DECODE write
OLEN and OBUF; each lane file is written by the commands its rule lists only. -/
def Obligations.CommandsWriteTheirDestinations : Prop :=
  ∀ (i : Instr) (s t : State), exec i s = .next t →
    (t.config = s.config ∧ t.ilen = s.ilen ∧ t.ibuf = s.ibuf ∧ t.pending = s.pending ∧ t.returned = s.returned ∧
      t.resets = s.resets) ∧
    ((i ≠ .encode ∧ i ≠ .decode) → t.olen = s.olen ∧ t.obuf = s.obuf) ∧
    ((i ≠ .unpk4 ∧ i ≠ .unpk3 ∧ i ≠ .unpk2 ∧ ∀ f, i ≠ .gval f) → t.bytes = s.bytes) ∧
    ((i ≠ .pack3 ∧ i ≠ .pack2 ∧ i ≠ .pack1 ∧ (∀ n, i ≠ .gfmt n) ∧ (∀ f, i ≠ .gval f) ∧ ∀ a l, i ≠ .idxof a l) →
      t.sextets = s.sextets) ∧
    (((∀ n, i ≠ .gfmt n) ∧ ∀ a l, i ≠ .symat a l) → t.symbols = s.symbols) ∧
    (∀ a l m, i = .symat a l → m ≠ l → t.symbols.get m = s.symbols.get m) ∧
    (∀ a l m, i = .idxof a l → m ≠ l → t.sextets.get m = s.sextets.get m)

/-- R40: what a command writes is a function of the inputs its rule names and of the ROM, and of nothing else; whether those
inputs are defined (log 13) counts as one of them. -/
def Obligations.ResultsDependOnNamedInputs : Prop :=
  ∀ (i : Instr) (s t s' : State), sourcesWritten i s = sourcesWritten i t → SameInputs i s t →
    exec i s = .next s' → ∃ t', exec i t = .next t' ∧ SameResults i s' t'

/-! ## Invariant and safety -/

/-- The invariant of the block holds after reset (R41). -/
def Obligations.ResetMeetsInvariant : Prop := ∀ (c : Config) (n : Nat), (State.afterReset c n).Inv

/-- R202, R186, with R199 for the input: every command answers a next state whatever the lanes hold; ENCODE and DECODE alone
stop, and only where a unit of the input has no value (log 1 for the lanes, log 3 for the order of the checks, log 11 for
the term GFMT 0). -/
def Obligations.CommandsRunWhereInputWritten : Prop :=
  ∀ (i : Instr) (s : State),
    ((∃ t, exec i s = .next t) ↔ inputWritten i s = true) ∧
    (inputWritten i s = false → exec i s = .refused .neverWrittenInput)

/-- The model's choice (log 1): the ten commands on the lanes compute from the values the lanes hold and never from the
marks: with all lanes marked as defined, the values and STATUS come out the same. -/
def Obligations.LaneCommandsIgnoreMarks : Prop :=
  ∀ (i : Instr) (s : State), i ≠ .encode → i ≠ .decode →
    ∃ t u, exec i s = .next t ∧ exec i s.markWritten = .next u ∧ t.byteValues = u.byteValues ∧
      t.sextetValues = u.sextetValues ∧ t.symbolValues = u.symbolValues ∧ t.err = u.err ∧ t.cnt = u.cnt

/-- R199 with the model's marks (log 13): a command with a source that holds no defined value leaves STATUS and every
destination lane marked so, an error included, and gives no lane the mark of a defined value; and every command, whatever
its sources, takes two states that differ in values marked as not defined to two such states. -/
def Obligations.UndefinedLanesStayMarked : Prop :=
  (∀ (i : Instr) (s t : State), sourcesWritten i s = false → exec i s = .next t →
    t.statusWritten = false ∧ DestinationsUndefined i t ∧
    (t.bytes.l0 = s.bytes.l0 ∨ t.bytes.l0.written = false) ∧ (t.bytes.l1 = s.bytes.l1 ∨ t.bytes.l1.written = false) ∧
    (t.bytes.l2 = s.bytes.l2 ∨ t.bytes.l2.written = false) ∧
    (∀ l, t.sextets.get l = s.sextets.get l ∨ (t.sextets.get l).written = false) ∧
    ∀ l, t.symbols.get l = s.symbols.get l ∨ (t.symbols.get l).written = false) ∧
  (∀ (i : Instr) (s t s' : State), s.Alike t → exec i s = .next s' → ∃ t', exec i t = .next t' ∧ s'.Alike t')

/-- Every step, from every state that meets it, keeps the invariant: canonical buffers within their capacities, OBUF valued
exactly below OLEN, only codes the hardware produces in ERR, and CNT 0 after an error (R31, R32, R36, R37). -/
def Obligations.StepKeepsInvariant : Prop := ∀ s t : State, s.Inv → step s = .next t → t.Inv

/-- R21, R22, R105: no command, host access or reset writes the ROM (or any parameter). -/
def Obligations.RomIsNeverWritten : Prop := ∀ s t : State, step s = .next t → t.config = s.config

/-- R57, R58, R186, R193, R199, R202: a step answers a next state exactly here: no event, a reset, a mapped access of the
right width (a unit that is read must have a value), a command (ENCODE and DECODE over an input with values), an illegal
word. -/
def Obligations.StepAnswersNextExactlyWhereItRuns : Prop :=
  ∀ s : State, (∃ t, step s = .next t) ↔ stepRuns s = true

/-- R199, R197 with the model's marks (log 1, log 12, log 13): no step carries a value that is not defined to a place marked as
defined: from two states that differ in values marked as not defined only, a step answers a next state from both or from
neither, and the results again differ in such values only. A step whose result the spec defines answers a next state. -/
def Obligations.StepKeepsUndefinedValuesMarked : Prop :=
  ∀ s t : State, s.Alike t →
    (∀ s', step s = .next s' → ∃ t', step t = .next t' ∧ s'.Alike t') ∧
    (stepSafe s = true → ∃ s', step s = .next s')

/-- R199, R185, D26, U7 as they stand: `refusingStep` gives no transition exactly to a command with a source, and to a host
read of a lane view, a unit or STATUS, that holds no defined value (OBUF at and above OLEN among them, by the invariant; STATUS
by log 13). On every other event, and on none, it is `step`, and so it is where it gives a transition at all. Along it STATUS stays defined, so a mark then says "never written" and nothing else, and no refusal of `step`
but that of a wrong width is left. -/
def Obligations.RefusingStepRefusesNeverWritten : Prop :=
  ∀ s : State,
    (∀ w i rest, s.pending = .write 0x00 32 w :: rest → Sys2Proof.decode w = .ok i →
      (refusingStep s = none ↔ sourcesWritten i s = false)) ∧
    (∀ rest, s.pending = .read 0x08 32 :: rest → (refusingStep s = none ↔
      s.bytes.l0.written = false ∨ s.bytes.l1.written = false ∨ s.bytes.l2.written = false)) ∧
    (∀ rest, s.pending = .read 0x0C 32 :: rest → (refusingStep s = none ↔ ∃ l, (s.sextets.get l).written = false)) ∧
    (∀ (l : Lane) (off : Nat) (rest : List HostEvent),
      (l, off) ∈ [(Lane.l0, 0x10), (.l1, 0x14), (.l2, 0x18), (.l3, 0x1C)] → s.pending = .read off 32 :: rest →
      (refusingStep s = none ↔ (s.symbols.get l).written = false)) ∧
    (∀ i rest, i < s.config.ibufCap → s.pending = .read (s.config.ibufBase + i) 8 :: rest →
      (refusingStep s = none ↔ s.ibuf.read i = none)) ∧
    (∀ i rest, i < s.config.obufCap → s.pending = .read (s.config.obufBase + i) 8 :: rest →
      ((refusingStep s = none ↔ s.obuf.read i = none) ∧ (s.Inv → (refusingStep s = none ↔ s.olen.toNat ≤ i)))) ∧
    (∀ rest, s.pending = .read 0x04 32 :: rest → (refusingStep s = none ↔ s.statusWritten = false)) ∧
    (s.pending = [] → refusingStep s = some (step s)) ∧
    (∀ rest, s.pending = .reset :: rest → refusingStep s = some (step s)) ∧
    (∀ off width v rest, s.pending = .write off width v :: rest → (off ≠ 0x00 ∨ width ≠ 32 ∨ Rejected v) →
      refusingStep s = some (step s)) ∧
    (∀ off width rest, s.pending = .read off width :: rest →
      (width = 32 → off ∉ [0x04, 0x08, 0x0C, 0x10, 0x14, 0x18, 0x1C]) →
      (width = 8 → ¬ (s.config.ibufBase ≤ off ∧ off < s.config.ibufBase + s.config.ibufCap) ∧
        ¬ (s.config.obufBase ≤ off ∧ off < s.config.obufBase + s.config.obufCap)) →
      refusingStep s = some (step s)) ∧
    (∀ o, refusingStep s = some o → o = step s) ∧
    (∀ t, s.statusWritten = true → refusingStep s = some (.next t) → t.statusWritten = true) ∧
    ∀ r, refusingStep s = some (.refused r) → ∃ off width, r = .wrongWidth off width

/-- R199, for the input: ENCODE, and DECODE of a length that passes its checks, stop where a unit of the input has never been
written. -/
def Obligations.NeverWrittenInputStops : Prop :=
  ∀ (s : State) (k : Nat), s.ilen.toNat ≤ s.config.ibufCap → k < s.ilen.toNat → s.ibuf.read k = none →
    exec .encode s = .refused .neverWrittenInput ∧
    (s.ilen.toNat % 12 = 0 → exec .decode s = .refused .neverWrittenInput)

/-! ## Host port and reset -/

/-- R27, R28, R29: a host write of BREG, SREG or Yk sets the whole lane file, or the lane, from bits 23:0 and changes nothing
else; a host read of defined lanes returns them in those places with bits 31:24 zero. -/
def Obligations.LaneViewsWriteAndRead : Prop :=
  ∀ (s : State) (v : Word) (rest : List HostEvent),
    (s.pending = .write 0x08 32 v :: rest → step s = .next { s with
      bytes := ⟨⟨v.extractLsb' 16 8, true⟩, ⟨v.extractLsb' 8 8, true⟩, ⟨v.extractLsb' 0 8, true⟩⟩
      pending := rest }) ∧
    (s.pending = .write 0x0C 32 v :: rest → step s = .next { s with
      sextets := ⟨⟨v.extractLsb' 18 6, true⟩, ⟨v.extractLsb' 12 6, true⟩, ⟨v.extractLsb' 6 6, true⟩,
        ⟨v.extractLsb' 0 6, true⟩⟩
      pending := rest }) ∧
    (∀ (l : Lane) (off : Nat), (l, off) ∈ [(Lane.l0, 0x10), (.l1, 0x14), (.l2, 0x18), (.l3, 0x1C)] →
      s.pending = .write off 32 v :: rest →
      step s = .next { s with symbols := s.symbols.set l ⟨v.extractLsb' 0 24, true⟩, pending := rest }) ∧
    (sourcesWritten .pack3 s = true → s.pending = .read 0x08 32 :: rest → step s = .next { s with
      pending := rest
      returned := .register (0#8 ++ s.bytes.l0.value ++ s.bytes.l1.value ++ s.bytes.l2.value) :: s.returned }) ∧
    (sourcesWritten .unpk4 s = true → s.pending = .read 0x0C 32 :: rest → step s = .next { s with
      pending := rest
      returned := .register (0#8 ++ s.sextets.l0.value ++ s.sextets.l1.value ++ s.sextets.l2.value ++
        s.sextets.l3.value) :: s.returned }) ∧
    (∀ (l : Lane) (off : Nat), (l, off) ∈ [(Lane.l0, 0x10), (.l1, 0x14), (.l2, 0x18), (.l3, 0x1C)] →
      (s.symbols.get l).written = true → s.pending = .read off 32 :: rest → step s = .next { s with
        pending := rest
        returned := .register (0#8 ++ (s.symbols.get l).value) :: s.returned })

/-- R27 to R30 where a lane, or STATUS, holds no defined value (R199, R56, log 1, log 12): the host read answers the word in
the same layout, marked unspecified. -/
def Obligations.UndefinedReadsMarked : Prop :=
  ∀ (s : State) (rest : List HostEvent),
    (sourcesWritten .pack3 s = false → s.pending = .read 0x08 32 :: rest →
      step s = .next { s with
        pending := rest
        returned := .unspecified (0#8 ++ s.bytes.l0.value ++ s.bytes.l1.value ++ s.bytes.l2.value) :: s.returned }) ∧
    (sourcesWritten .unpk4 s = false → s.pending = .read 0x0C 32 :: rest →
      step s = .next { s with
        pending := rest
        returned := .unspecified (0#8 ++ s.sextets.l0.value ++ s.sextets.l1.value ++ s.sextets.l2.value ++
          s.sextets.l3.value) :: s.returned }) ∧
    (∀ (l : Lane) (off : Nat), (l, off) ∈ [(Lane.l0, 0x10), (.l1, 0x14), (.l2, 0x18), (.l3, 0x1C)] →
      (s.symbols.get l).written = false → s.pending = .read off 32 :: rest →
      step s = .next { s with
        pending := rest
        returned := .unspecified (0#8 ++ (s.symbols.get l).value) :: s.returned }) ∧
    (s.statusWritten = false → s.pending = .read 0x04 32 :: rest → step s = .next { s with
      pending := rest
      returned := .unspecified (s.err.setWidth 32 ||| (s.cnt.setWidth 32 <<< 4)) :: s.returned })

/-- R30, R33, R34, R35: what a host reads of STATUS (`ERR` in 3:0, `CNT` in 5:4, zero above; where it
holds no defined value, see UndefinedReadsMarked), ILEN, OLEN and CMD (zero), with
no effect but the value returned. -/
def Obligations.ControlRegisterReads : Prop :=
  ∀ (s : State) (rest : List HostEvent),
    (s.statusWritten = true → s.pending = .read 0x04 32 :: rest → step s = .next { s with
      pending := rest
      returned := .register (s.err.setWidth 32 ||| (s.cnt.setWidth 32 <<< 4)) :: s.returned }) ∧
    (s.pending = .read 0x20 32 :: rest →
      step s = .next { s with pending := rest, returned := .register s.ilen :: s.returned }) ∧
    (s.pending = .read 0x24 32 :: rest →
      step s = .next { s with pending := rest, returned := .register s.olen :: s.returned }) ∧
    (s.pending = .read 0x00 32 :: rest →
      step s = .next { s with pending := rest, returned := .register 0 :: s.returned })

/-- R59: a host read changes nothing and returns one value; a host write of STATUS, OLEN or OBUF is ignored; one of ILEN or
of an IBUF unit changes only that. -/
def Obligations.HostAccessSideEffects : Prop :=
  ∀ (s : State) (rest : List HostEvent),
    (∀ off width t, s.pending = .read off width :: rest → step s = .next t →
      ∃ v, t = { s with pending := rest, returned := v :: s.returned }) ∧
    (∀ off v, off = 0x04 ∨ off = 0x24 → s.pending = .write off 32 v :: rest →
      step s = .next { s with pending := rest }) ∧
    (∀ i v, i < s.config.obufCap → s.pending = .write (s.config.obufBase + i) 8 v :: rest →
      step s = .next { s with pending := rest }) ∧
    (∀ v, s.pending = .write 0x20 32 v :: rest → step s = .next { s with pending := rest, ilen := v }) ∧
    (∀ i v, i < s.config.ibufCap → s.pending = .write (s.config.ibufBase + i) 8 v :: rest →
      ∃ t, step s = .next t ∧ t = { s with pending := rest, ibuf := t.ibuf } ∧
        t.ibuf.read i = some (v.extractLsb' 0 8) ∧ ∀ k, k ≠ i → t.ibuf.read k = s.ibuf.read k)

/-- R36, R37, R199: a host read of a buffer unit returns the unit, and stops where nothing has written it. -/
def Obligations.BufferUnitReads : Prop :=
  ∀ (s : State) (rest : List HostEvent) (i : Nat),
    (i < s.config.ibufCap → s.pending = .read (s.config.ibufBase + i) 8 :: rest →
      (∀ v, s.ibuf.read i = some v →
        step s = .next { s with pending := rest, returned := .storageUnit v :: s.returned }) ∧
      (s.ibuf.read i = none → step s = .refused (.neverWrittenUnit (s.config.ibufBase + i)))) ∧
    (i < s.config.obufCap → s.pending = .read (s.config.obufBase + i) 8 :: rest →
      (∀ v, s.obuf.read i = some v →
        step s = .next { s with pending := rest, returned := .storageUnit v :: s.returned }) ∧
      (s.obuf.read i = none → step s = .refused (.neverWrittenUnit (s.config.obufBase + i))))

/-- R82: `LDB`, `LDS` and `LDY` set the lanes to their operands and nothing else (host events: log 6). -/
def Obligations.LoadLinesSetLanes : Prop :=
  ∀ s : State,
    (∀ b0 b1 b2 : Byte, step (s.withProgram [.ldb b0 b1 b2]) =
      .next { s with bytes := ⟨⟨b0, true⟩, ⟨b1, true⟩, ⟨b2, true⟩⟩ }) ∧
    (∀ s0 s1 s2 s3 : Sextet, step (s.withProgram [.lds s0 s1 s2 s3]) =
      .next { s with sextets := ⟨⟨s0, true⟩, ⟨s1, true⟩, ⟨s2, true⟩, ⟨s3, true⟩⟩ }) ∧
    (∀ y0 y1 y2 y3 : Symbol, run 4 (s.withProgram [.ldy y0 y1 y2 y3]) =
      .next { s with symbols := ⟨⟨y0, true⟩, ⟨y1, true⟩, ⟨y2, true⟩, ⟨y3, true⟩⟩ })

/-- R82: `LDI` of units that fit IBUF takes one step for each and one for ILEN; then IBUF holds them from unit 0 on, ILEN
their number, and nothing else has changed, the units above included. `LDSYM` is `LDI` of the text of its symbols. -/
def Obligations.LoadInputFillsBuffer : Prop :=
  ∀ (s : State) (us : List Byte), us.length ≤ s.config.ibufCap →
    (∃ t, run (us.length + 1) (s.withProgram [.ldi us]) = .next t ∧
      t = { s with ibuf := t.ibuf, ilen := t.ilen } ∧ t.ilen.toNat = us.length ∧
      (∀ k, k < us.length → t.ibuf.read k = us[k]?) ∧ ∀ k, us.length ≤ k → t.ibuf.read k = s.ibuf.read k) ∧
    ∀ ys : List Symbol, textOf ys = us → s.withProgram [.ldsym ys] = s.withProgram [.ldi us]

/-- R57, with the model's choice of fault and refusal (log 8): an access where nothing is mapped stops with a fault, one of
the wrong width with a refusal. -/
def Obligations.UnmappedAccessesStop : Prop :=
  ∀ (s : State) (rest : List HostEvent) (off width : Nat) (v : Word),
    s.pending = .read off width :: rest ∨ s.pending = .write off width v :: rest →
    let reg := off ∈ [0x00, 0x04, 0x08, 0x0C, 0x10, 0x14, 0x18, 0x1C, 0x20, 0x24]
    let unit := (s.config.ibufBase ≤ off ∧ off < s.config.ibufBase + s.config.ibufCap) ∨
      (s.config.obufBase ≤ off ∧ off < s.config.obufBase + s.config.obufCap)
    (¬ reg → ¬ unit → step s = .fault (.unmappedAddress off)) ∧
    (reg → width ≠ 32 → step s = .refused (.wrongWidth off width)) ∧
    (unit → width ≠ 8 → step s = .refused (.wrongWidth off width))

/-- R41, R195: what the reset event leaves: STATUS, ILEN and OLEN 0, the ROM as configured, every lane and buffer unit never
written; `State.reset` is such a state, with the default tables (log 4) and parameters (log 5). What the host
has still to do and has been told stays (log 9). -/
def Obligations.ResetLeavesTheTable : Prop :=
  (∀ (s : State) (rest : List HostEvent), s.pending = .reset :: rest → ∃ t, step s = .next t ∧
    t.config = s.config ∧ t.err = 0 ∧ t.cnt = 0 ∧ t.statusWritten = true ∧ t.ilen = 0 ∧ t.olen = 0 ∧
    (∀ k, t.ibuf.read k = none) ∧ (∀ k, t.obuf.read k = none) ∧
    t.bytes.l0.written = false ∧ t.bytes.l1.written = false ∧ t.bytes.l2.written = false ∧
    (∀ l, (t.sextets.get l).written = false) ∧ (∀ l, (t.symbols.get l).written = false) ∧
    t.pending = rest ∧ t.returned = s.returned) ∧
  (State.reset.config = Config.default ∧ State.reset.err = 0 ∧ State.reset.cnt = 0 ∧
    State.reset.statusWritten = true ∧ State.reset.ilen = 0 ∧ State.reset.olen = 0 ∧
    (∀ k, State.reset.ibuf.read k = none) ∧ (∀ k, State.reset.obuf.read k = none) ∧
    State.reset.bytes.l0.written = false ∧ State.reset.bytes.l1.written = false ∧
    State.reset.bytes.l2.written = false ∧ (∀ l, (State.reset.sextets.get l).written = false) ∧
    ∀ l, (State.reset.symbols.get l).written = false)
end

