-- ==== Sys2Proof/Laws/Alphabets.lean ====
section
/-! SUPPORT. Laws/Alphabets.lean: what an admitted configuration gives of its tables (R9), and what the two total lookups
answer. -/

namespace Sys2Proof

/-- Neither table has more entries than a sextet can index. -/
theorem Config.table_length_le (c : Config) (a : Alphabet) : (c.table a).length ≤ 64 := by
  cases a
  · exact c.admitted.1.le
  · exact c.admitted.2.1.le.trans (by decide)

/-- The entries of a table are pairwise different (R9). -/
theorem Config.table_nodup (c : Config) (a : Alphabet) : (c.table a).Nodup := by
  have h := List.nodup_append.1 c.admitted.2.2.1
  cases a
  · exact h.1
  · exact h.2.1

/-- The data symbol of an index is that entry of `ALPHA_D`. -/
theorem Config.alphaD_getElem (c : Config) (i : Sextet) : c.alphaD[i.toNat]? = some (c.dataSymbol i) :=
  List.getElem?_eq_getElem _

/-- The canonical padding symbol is entry 0 of `ALPHA_P`. -/
theorem Config.alphaP_zero (c : Config) : c.alphaP[0]? = some c.padSymbol :=
  List.getElem?_eq_getElem _

/-- A data symbol is an entry of the data alphabet. -/
theorem Config.dataSymbol_mem (c : Config) (i : Sextet) : c.dataSymbol i ∈ c.alphaD := List.getElem_mem _

/-- The canonical padding symbol is an entry of the padding alphabet. -/
theorem Config.padSymbol_mem (c : Config) : c.padSymbol ∈ c.alphaP := List.getElem_mem _

/-- A lookup fails exactly on symbols the table lacks (R101). -/
theorem Config.indexOf_eq_none (c : Config) (a : Alphabet) (y : Symbol) : c.indexOf a y = none ↔ y ∉ c.table a := by
  simp [Config.indexOf, List.idxOf?_eq_none_iff]

end Sys2Proof
end

