-- ==== Sys2Proof/Laws/BitPacker.lean ====
section
/-! SUPPORT. Laws/BitPacker.lean: the two assemblies bit by bit, and each lane of the packing functions through them: a proof
about single bits rewrites with these and does not unfold an append. -/

namespace Sys2Proof.Machine

/-- Bit `i` of the assembly of three bytes (R110). -/
theorem asm24_getLsbD (b0 b1 b2 : Byte) (i : Nat) :
    (asm24 b0 b1 b2).getLsbD i =
      if i < 8 then b2.getLsbD i else if i < 16 then b1.getLsbD (i - 8) else b0.getLsbD (i - 16) := by
  have h : (asm24 b0 b1 b2).getLsbD i = ((b0 ++ b1 ++ b2 : BitVec (8 + 8 + 8))).getLsbD i := rfl
  rw [h, BitVec.getLsbD_append, BitVec.getLsbD_append]
  by_cases h1 : i < 8
  · simp [h1]
  · by_cases h2 : i < 16
    · have h3 : i - 8 < 8 := by omega
      simp [h1, h2, h3]
    · have h3 : ¬ i - 8 < 8 := by omega
      simp [h1, h2, h3, Nat.sub_sub]

/-- Bit `i` of the assembly of four sextets (R112). -/
theorem joinSextets_getLsbD (s0 s1 s2 s3 : Sextet) (i : Nat) :
    (joinSextets s0 s1 s2 s3).getLsbD i =
      if i < 6 then s3.getLsbD i else if i < 12 then s2.getLsbD (i - 6)
      else if i < 18 then s1.getLsbD (i - 12) else s0.getLsbD (i - 18) := by
  have h : (joinSextets s0 s1 s2 s3).getLsbD i = ((s0 ++ s1 ++ s2 ++ s3 : BitVec (6 + 6 + 6 + 6))).getLsbD i := rfl
  rw [h, BitVec.getLsbD_append, BitVec.getLsbD_append, BitVec.getLsbD_append]
  by_cases h1 : i < 6
  · simp [h1]
  · by_cases h2 : i < 12
    · have h3 : i - 6 < 6 := by omega
      simp [h1, h2, h3]
    · by_cases h4 : i < 18
      · have h3 : ¬ i - 6 < 6 := by omega
        simp [h1, h2, h3, h4, Nat.sub_sub]
        omega
      · have h3 : ¬ i - 6 < 6 := by omega
        simp [h1, h2, h3, h4, Nat.sub_sub]
        omega

theorem pack3_l0 (b0 b1 b2 : Byte) : (pack3 b0 b1 b2).l0 = (asm24 b0 b1 b2).extractLsb' 18 6 := rfl
theorem pack3_l1 (b0 b1 b2 : Byte) : (pack3 b0 b1 b2).l1 = (asm24 b0 b1 b2).extractLsb' 12 6 := rfl
theorem pack3_l2 (b0 b1 b2 : Byte) : (pack3 b0 b1 b2).l2 = (asm24 b0 b1 b2).extractLsb' 6 6 := rfl
theorem pack3_l3 (b0 b1 b2 : Byte) : (pack3 b0 b1 b2).l3 = (asm24 b0 b1 b2).extractLsb' 0 6 := rfl

theorem unpack4_l0 (s0 s1 s2 s3 : Sextet) :
    (unpack4 s0 s1 s2 s3).l0 = (joinSextets s0 s1 s2 s3).extractLsb' 16 8 := rfl
theorem unpack4_l1 (s0 s1 s2 s3 : Sextet) :
    (unpack4 s0 s1 s2 s3).l1 = (joinSextets s0 s1 s2 s3).extractLsb' 8 8 := rfl
theorem unpack4_l2 (s0 s1 s2 s3 : Sextet) :
    (unpack4 s0 s1 s2 s3).l2 = (joinSextets s0 s1 s2 s3).extractLsb' 0 8 := rfl

end Sys2Proof.Machine
end

