-- ==== Sys2Proof/Laws/Codec.lean ====
section
/-! SUPPORT. Laws/Codec.lean: lengths of what the encoder and the decoder produce, and the kinds the decoder answers. -/

namespace Sys2Proof.Machine

@[simp] theorem unitsOfSymbol_length (y : Symbol) : (unitsOfSymbol y).length = 3 := rfl

@[simp] theorem textOf_nil : textOf [] = [] := rfl

@[simp] theorem textOf_cons (y : Symbol) (ys : List Symbol) : textOf (y :: ys) = unitsOfSymbol y ++ textOf ys := rfl

theorem textOf_append (xs ys : List Symbol) : textOf (xs ++ ys) = textOf xs ++ textOf ys := by simp [textOf]

@[simp] theorem textOf_length (ys : List Symbol) : (textOf ys).length = 3 * ys.length := by
  induction ys with
  | nil => rfl
  | cons y ys ih => simp [ih]; omega

@[simp] theorem formatGroup3_length (c : Config) (b0 b1 b2 : Byte) : (formatGroup3 c b0 b1 b2).length = 4 := rfl
@[simp] theorem formatGroup2_length (c : Config) (b0 b1 : Byte) : (formatGroup2 c b0 b1).length = 4 := rfl
@[simp] theorem formatGroup1_length (c : Config) (b0 : Byte) : (formatGroup1 c b0).length = 4 := rfl

@[simp] theorem encodeBytes_length (c : Config) (x : List Byte) :
    (encodeBytes c x).length = 4 * ((x.length + 2) / 3) := by
  induction x using encodeBytes.induct with
  | case1 => rfl
  | case2 b0 => simp [encodeBytes]
  | case3 b0 b1 => simp [encodeBytes]
  | case4 b0 b1 b2 x ih => simp only [encodeBytes, List.length_append, ih, formatGroup3_length, List.length_cons]; omega

theorem parseGroup4_length {c : Config} {y0 y1 y2 y3 : Symbol} {b : List Byte}
    (h : parseGroup4 c y0 y1 y2 y3 = some b) : b.length = 3 := by
  unfold parseGroup4 at h
  split at h <;> cases h
  rfl

/-- Full groups give three bytes for four symbols. -/
theorem parseFullGroups_length {c : Config} :
    ∀ {ys : List Symbol} {bs : List Byte}, parseFullGroups c ys = some bs → bs.length = 3 * (ys.length / 4)
  | y0 :: y1 :: y2 :: y3 :: ys, bs, h => by
    simp only [parseFullGroups] at h
    split at h <;> cases h
    rename_i b bs' hb hbs
    have ih := parseFullGroups_length hbs
    rw [List.length_append, parseGroup4_length hb, ih]
    simp only [List.length_cons]
    omega
  | [], _, h | [_], _, h | [_, _], _, h | [_, _, _], _, h => by cases h; simp

/-- The partial group gives at most two bytes. -/
theorem parsePartial_length {c : Config} {ys : List Symbol} {bs : List Byte} (h : parsePartial c ys = some bs) :
    bs.length = if ys.length = 3 then 2 else if ys.length = 2 then 1 else 0 := by
  unfold parsePartial at h
  split at h
  · split at h
    · cases h; rfl
    · cases h
  · split at h
    · cases h; rfl
    · cases h
  · rename_i h3 h2
    cases h
    rcases ys with _ | ⟨a, _ | ⟨b, _ | ⟨d, _ | ⟨e, ys⟩⟩⟩⟩
    · rfl
    · rfl
    · exact absurd rfl (h2 a b)
    · exact absurd rfl (h3 a b d)
    · simp

/-- A decoded string is no longer than three bytes for four symbols. -/
theorem decodeSymbols_length_le {c : Config} {ys : List Symbol} {bs : List Byte} (h : decodeSymbols c ys = .ok bs) :
    bs.length ≤ ys.length := by
  unfold decodeSymbols at h
  simp only at h
  split_ifs at h with hp
  split at h
  · rename_i full rest hf hr
    cases h
    have h1 := parseFullGroups_length hf
    have h2 := parsePartial_length hr
    simp only [List.length_take, List.length_drop] at h1 h2
    rw [List.length_append, h1, h2]
    split_ifs <;> omega
  · cases h

@[simp] theorem symbolsOf_length : ∀ us : List Byte, (symbolsOf us).length = us.length / 3
  | u0 :: u1 :: u2 :: us => by simp only [symbolsOf, List.length_cons, symbolsOf_length us]; omega
  | [] | [_] | [_, _] => by simp [symbolsOf]

/-- `Decode` answers bytes that fit where its string fits. -/
theorem decodeText_length_le {c : Config} {us bs : List Byte} (h : decodeText c us = .ok bs) :
    bs.length ≤ us.length := by
  unfold decodeText at h
  split at h
  · cases h
  · have := decodeSymbols_length_le h
    simp at this; omega

theorem lengthError_kind {n : Nat} {k : ErrorKind} (h : lengthError n = some k) :
    k = .emptyInput ∨ k = .unsupportedEncoding := by
  unfold lengthError at h
  split_ifs at h <;> simp_all

theorem decodeSymbols_kind {c : Config} {ys : List Symbol} {k : ErrorKind} (h : decodeSymbols c ys = .error k) :
    k = .excessPadding ∨ k = .symbolNotFound := by
  unfold decodeSymbols at h
  simp only at h
  split_ifs at h with hp
  · cases h; exact .inl rfl
  · split at h <;> cases h
    exact .inr rfl

/-- The kinds `Decode` answers (R145). -/
theorem decodeText_kind {c : Config} {us : List Byte} {k : ErrorKind} (h : decodeText c us = .error k) :
    k = .emptyInput ∨ k = .unsupportedEncoding ∨ k = .excessPadding ∨ k = .symbolNotFound := by
  unfold decodeText at h
  split at h
  · cases h
    rcases lengthError_kind ‹_› with h | h <;> simp [h]
  · rcases decodeSymbols_kind h with h | h <;> simp [h]

end Sys2Proof.Machine
end

