-- ==== Sys2Proof/Laws/Memory.lean ====
section
/-! SUPPORT. Laws/Memory.lean: what each buffer operation does, and that each keeps the canonical form. -/

namespace Sys2Proof.Machine

@[simp] theorem Memory.read_nil (a : Nat) : Memory.read [] a = none := rfl

theorem Memory.read_cons (k : Nat) (v : Byte) (m : Memory) (a : Nat) :
    Memory.read ((k, v) :: m) a = if k = a then some v else Memory.read m a := rfl

/-- An index below every listed one is not listed. -/
theorem Memory.read_eq_none_of_lt {m : Memory} {a : Nat} (h : ∀ p ∈ m, a < p.1) : m.read a = none := by
  induction m with
  | nil => rfl
  | cons p m ih =>
    have hp := h p (by simp)
    rw [show p = (p.1, p.2) from rfl, Memory.read_cons, if_neg (by omega)]
    exact ih fun q hq => h q (by simp [hq])

/-- A write is read back. -/
theorem Memory.read_write_same (m : Memory) (a : Nat) (v : Byte) : (m.write a v).read a = some v := by
  induction m with
  | nil => simp [Memory.write, Memory.read]
  | cons p m ih =>
    obtain ⟨k, u⟩ := p
    unfold Memory.write
    split_ifs with h1 h2
    · simp [Memory.read_cons]
    · simp [Memory.read_cons]
    · rw [Memory.read_cons, if_neg (Ne.symm h2), ih]

/-- A write leaves every other unit alone. -/
theorem Memory.read_write_other (m : Memory) {a b : Nat} (v : Byte) (h : b ≠ a) :
    (m.write a v).read b = m.read b := by
  induction m with
  | nil => simp [Memory.write, Memory.read, Ne.symm h]
  | cons p m ih =>
    obtain ⟨k, u⟩ := p
    unfold Memory.write
    split_ifs with h1 h2
    · rw [Memory.read_cons, if_neg (Ne.symm h)]
    · subst h2; rw [Memory.read_cons, Memory.read_cons, if_neg (Ne.symm h), if_neg (Ne.symm h)]
    · rw [Memory.read_cons, Memory.read_cons, ih]

/-- Whatever a write lists was listed or is the unit written. -/
theorem Memory.mem_write {m : Memory} {a : Nat} {v : Byte} {p : Host.Cell} (h : p ∈ m.write a v) :
    p = (a, v) ∨ p ∈ m := by
  induction m with
  | nil => simpa [Memory.write] using h
  | cons q m ih =>
    obtain ⟨k, u⟩ := q
    unfold Memory.write at h
    split_ifs at h with h1 h2
    · simpa using h
    · rcases List.mem_cons.1 h with h | h
      · exact .inl h
      · exact .inr (by simp [h])
    · rcases List.mem_cons.1 h with h | h
      · exact .inr (by simp [h])
      · rcases ih h with h | h
        · exact .inl h
        · exact .inr (by simp [h])

/-- A write keeps the canonical form. -/
theorem Memory.write_wf {m : Memory} (a : Nat) (v : Byte) (h : m.wf) : (m.write a v).wf := by
  induction m with
  | nil => simp [Memory.write, Memory.wf]
  | cons q m ih =>
    obtain ⟨k, u⟩ := q
    obtain ⟨hk, hm⟩ := List.pairwise_cons.1 h
    unfold Memory.write
    split_ifs with h1 h2
    · refine List.pairwise_cons.2 ⟨fun p hp => ?_, h⟩
      rcases List.mem_cons.1 hp with rfl | hp
      · exact h1
      · exact Nat.lt_trans h1 (hk p hp)
    · subst h2; exact List.pairwise_cons.2 ⟨hk, hm⟩
    · refine List.pairwise_cons.2 ⟨fun p hp => ?_, ih hm⟩
      rcases Memory.mem_write hp with rfl | hp
      · show k < a; omega
      · exact hk p hp

/-- Every index of `ofUnits` is at or above the first and below its end. -/
theorem Memory.mem_ofUnits {i : Nat} {us : List Byte} {p : Host.Cell} (h : p ∈ Memory.ofUnits i us) :
    i ≤ p.1 ∧ p.1 < i + us.length := by
  induction us generalizing i with
  | nil => simp [Memory.ofUnits] at h
  | cons u us ih =>
    rcases List.mem_cons.1 h with rfl | h
    · simp
    · have := ih h; simp; omega

/-- The buffer that holds given units is in canonical form. -/
theorem Memory.ofUnits_wf (i : Nat) (us : List Byte) : (Memory.ofUnits i us).wf := by
  induction us generalizing i with
  | nil => exact .nil
  | cons u us ih =>
    refine List.pairwise_cons.2 ⟨fun p hp => ?_, ih _⟩
    have := Memory.mem_ofUnits hp
    show i < p.1
    omega

/-- The units of `ofUnits` by index. -/
theorem Memory.read_ofUnits (i : Nat) (us : List Byte) (k : Nat) :
    (Memory.ofUnits i us).read k = if i ≤ k then us[k - i]? else none := by
  induction us generalizing i with
  | nil => simp [Memory.ofUnits]
  | cons u us ih =>
    rw [Memory.ofUnits, Memory.read_cons, ih]
    rcases Nat.lt_trichotomy i k with h | h | h
    · rw [if_neg (by omega), if_pos (by omega), if_pos (by omega), show k - i = (k - (i + 1)) + 1 by omega,
        List.getElem?_cons_succ]
    · subst h; simp
    · rw [if_neg (by omega), if_neg (by omega), if_neg (by omega)]

/-- The units of `ofUnits` from 0 on. -/
@[simp] theorem Memory.read_ofUnits_zero (us : List Byte) (k : Nat) : (Memory.ofUnits 0 us).read k = us[k]? := by
  simp [Memory.read_ofUnits]

/-- What `readUnits` answers: the `n` units, each of them written. -/
theorem Memory.readUnits_eq_some {m : Memory} {i n : Nat} {us : List Byte} :
    m.readUnits i n = some us ↔ us.length = n ∧ ∀ k, k < n → m.read (i + k) = us[k]? := by
  induction n generalizing i us with
  | zero => cases us <;> simp [Memory.readUnits]
  | succ n ih =>
    unfold Memory.readUnits
    constructor
    · intro h
      split at h
      · rename_i u us' hu hus
        obtain rfl := Option.some.inj h
        obtain ⟨hl, hr⟩ := ih.1 hus
        refine ⟨by simp [hl], fun k hk => ?_⟩
        cases k with
        | zero => simpa using hu
        | succ k => simpa [Nat.add_assoc, Nat.add_comm 1 k] using hr k (by omega)
      · cases h
    · rintro ⟨hl, hr⟩
      cases us with
      | nil => simp at hl
      | cons u us =>
        have h0 := hr 0 (by omega)
        have ht : m.readUnits (i + 1) n = some us :=
          ih.2 ⟨by simpa using hl, fun k hk => by
            have := hr (k + 1) (by omega)
            simpa [Nat.add_assoc, Nat.add_comm 1 k] using this⟩
        simp only [Nat.add_zero, List.getElem?_cons_zero] at h0
        simp [h0, ht]

/-- `readUnits` has no answer exactly where some unit of the range was never written. -/
theorem Memory.readUnits_eq_none {m : Memory} {i n : Nat} :
    m.readUnits i n = none ↔ ∃ k, k < n ∧ m.read (i + k) = none := by
  induction n generalizing i with
  | zero => simp [Memory.readUnits]
  | succ n ih =>
    unfold Memory.readUnits
    constructor
    · intro h
      split at h
      · cases h
      · rename_i hne
        by_cases h0 : m.read i = none
        · exact ⟨0, by omega, by simpa using h0⟩
        · obtain ⟨u, hu⟩ := Option.ne_none_iff_exists'.1 h0
          have hn : m.readUnits (i + 1) n = none := by
            cases hr : m.readUnits (i + 1) n with
            | none => rfl
            | some us => exact absurd hr (hne u us hu)
          obtain ⟨k, hk, hr⟩ := ih.1 hn
          exact ⟨k + 1, by omega, by simpa [Nat.add_assoc, Nat.add_comm 1 k] using hr⟩
    · rintro ⟨k, hk, hr⟩
      split
      · rename_i u us hu hus
        cases k with
        | zero => simp [show m.read i = none by simpa using hr] at hu
        | succ k =>
          have : m.readUnits (i + 1) n = none :=
            ih.2 ⟨k, by omega, by simpa [Nat.add_assoc, Nat.add_comm 1 k] using hr⟩
          simp [this] at hus
      · rfl

end Sys2Proof.Machine
end

