-- ==== Sys2Proof/Laws/State.lean ====
section
/-! SUPPORT. Laws/State.lean: one lemma per field per update of the state, each true by definition, and how the lane
files are read back. -/

namespace Sys2Proof

@[simp] theorem Quad.get_set_same {α : Type} (q : Quad α) (l : Lane) (v : α) : (q.set l v).get l = v := by
  cases l <;> rfl

@[simp] theorem Quad.set_get {α : Type} (q : Quad α) (l : Lane) : q.set l (q.get l) = q := by cases l <;> rfl

theorem Quad.get_set_other {α : Type} (q : Quad α) {l m : Lane} (v : α) (h : m ≠ l) :
    (q.set l v).get m = q.get m := by
  cases l <;> cases m <;> first | rfl | exact absurd rfl h

namespace Machine

variable (s : State)


@[simp] theorem State.byteValues_l0 : s.byteValues.l0 = s.bytes.l0.value := rfl
@[simp] theorem State.byteValues_l1 : s.byteValues.l1 = s.bytes.l1.value := rfl
@[simp] theorem State.byteValues_l2 : s.byteValues.l2 = s.bytes.l2.value := rfl
theorem State.sextetValues_get (l : Lane) : s.sextetValues.get l = (s.sextets.get l).value := by cases l <;> rfl
theorem State.symbolValues_get (l : Lane) : s.symbolValues.get l = (s.symbols.get l).value := by cases l <;> rfl
@[simp] theorem LaneReg.keep_value {n : Nat} (w : Bool) (x : LaneReg n) : (x.keep w).value = x.value := rfl
@[simp] theorem LaneReg.keep_true {n : Nat} (x : LaneReg n) : x.keep true = x := by simp [LaneReg.keep]
@[simp] theorem LaneReg.keep_false {n : Nat} (x : LaneReg n) : x.keep false = ⟨x.value, false⟩ := by simp [LaneReg.keep]
@[simp] theorem State.keepSextet_true (l : Lane) : s.keepSextet l true = s := by simp [State.keepSextet]
@[simp] theorem State.keepSymbol_true (l : Lane) : s.keepSymbol l true = s := by simp [State.keepSymbol]
@[simp] theorem State.keepGroup_true : s.keepGroup true = s := by simp [State.keepGroup]
theorem State.sextetValues_keepSextet (l : Lane) (w : Bool) : (s.keepSextet l w).sextetValues = s.sextetValues := by
  cases l <;> rfl
theorem State.symbolValues_keepSymbol (l : Lane) (w : Bool) : (s.keepSymbol l w).symbolValues = s.symbolValues := by
  cases l <;> rfl
theorem State.byteValues_keepGroup (w : Bool) : (s.keepGroup w).byteValues = s.byteValues := rfl
theorem State.sextetValues_keepGroup (w : Bool) : (s.keepGroup w).sextetValues = s.sextetValues := rfl
@[simp] theorem State.byteValues_setBytes (w : Bool) (v : Triple Byte) : (s.setBytes w v).byteValues = v := rfl
@[simp] theorem State.sextetValues_setSextets (w : Bool) (v : Quad Sextet) : (s.setSextets w v).sextetValues = v := rfl
@[simp] theorem State.symbolValues_setSymbols (w : Bool) (v : Quad Symbol) : (s.setSymbols w v).symbolValues = v := rfl


@[simp] theorem State.complete_config (w : Bool) (n : BitVec 2) : (s.complete w n).config = s.config := rfl
@[simp] theorem State.complete_bytes (w : Bool) (n : BitVec 2) : (s.complete w n).bytes = s.bytes := rfl
@[simp] theorem State.complete_sextets (w : Bool) (n : BitVec 2) : (s.complete w n).sextets = s.sextets := rfl
@[simp] theorem State.complete_symbols (w : Bool) (n : BitVec 2) : (s.complete w n).symbols = s.symbols := rfl
@[simp] theorem State.complete_err (w : Bool) (n : BitVec 2) : (s.complete w n).err = 0 := rfl
@[simp] theorem State.complete_cnt (w : Bool) (n : BitVec 2) : (s.complete w n).cnt = n := rfl
@[simp] theorem State.complete_statusWritten (w : Bool) (n : BitVec 2) : (s.complete w n).statusWritten = w := rfl
@[simp] theorem State.complete_ilen (w : Bool) (n : BitVec 2) : (s.complete w n).ilen = s.ilen := rfl
@[simp] theorem State.complete_olen (w : Bool) (n : BitVec 2) : (s.complete w n).olen = s.olen := rfl
@[simp] theorem State.complete_ibuf (w : Bool) (n : BitVec 2) : (s.complete w n).ibuf = s.ibuf := rfl
@[simp] theorem State.complete_obuf (w : Bool) (n : BitVec 2) : (s.complete w n).obuf = s.obuf := rfl
@[simp] theorem State.complete_pending (w : Bool) (n : BitVec 2) : (s.complete w n).pending = s.pending := rfl
@[simp] theorem State.complete_returned (w : Bool) (n : BitVec 2) : (s.complete w n).returned = s.returned := rfl
@[simp] theorem State.complete_resets (w : Bool) (n : BitVec 2) : (s.complete w n).resets = s.resets := rfl

@[simp] theorem State.setBytes_config (w : Bool) (v : Triple Byte) : (s.setBytes w v).config = s.config := rfl
@[simp] theorem State.setBytes_bytes (w : Bool) (v : Triple Byte) : (s.setBytes w v).bytes = ⟨⟨v.l0, w⟩, ⟨v.l1, w⟩, ⟨v.l2, w⟩⟩ := rfl
@[simp] theorem State.setBytes_sextets (w : Bool) (v : Triple Byte) : (s.setBytes w v).sextets = s.sextets := rfl
@[simp] theorem State.setBytes_symbols (w : Bool) (v : Triple Byte) : (s.setBytes w v).symbols = s.symbols := rfl
@[simp] theorem State.setBytes_err (w : Bool) (v : Triple Byte) : (s.setBytes w v).err = s.err := rfl
@[simp] theorem State.setBytes_cnt (w : Bool) (v : Triple Byte) : (s.setBytes w v).cnt = s.cnt := rfl
@[simp] theorem State.setBytes_statusWritten (w : Bool) (v : Triple Byte) : (s.setBytes w v).statusWritten = s.statusWritten := rfl
@[simp] theorem State.setBytes_ilen (w : Bool) (v : Triple Byte) : (s.setBytes w v).ilen = s.ilen := rfl
@[simp] theorem State.setBytes_olen (w : Bool) (v : Triple Byte) : (s.setBytes w v).olen = s.olen := rfl
@[simp] theorem State.setBytes_ibuf (w : Bool) (v : Triple Byte) : (s.setBytes w v).ibuf = s.ibuf := rfl
@[simp] theorem State.setBytes_obuf (w : Bool) (v : Triple Byte) : (s.setBytes w v).obuf = s.obuf := rfl
@[simp] theorem State.setBytes_pending (w : Bool) (v : Triple Byte) : (s.setBytes w v).pending = s.pending := rfl
@[simp] theorem State.setBytes_returned (w : Bool) (v : Triple Byte) : (s.setBytes w v).returned = s.returned := rfl
@[simp] theorem State.setBytes_resets (w : Bool) (v : Triple Byte) : (s.setBytes w v).resets = s.resets := rfl

@[simp] theorem State.setSextets_config (w : Bool) (v : Quad Sextet) : (s.setSextets w v).config = s.config := rfl
@[simp] theorem State.setSextets_bytes (w : Bool) (v : Quad Sextet) : (s.setSextets w v).bytes = s.bytes := rfl
@[simp] theorem State.setSextets_sextets (w : Bool) (v : Quad Sextet) : (s.setSextets w v).sextets = ⟨⟨v.l0, w⟩, ⟨v.l1, w⟩, ⟨v.l2, w⟩, ⟨v.l3, w⟩⟩ := rfl
@[simp] theorem State.setSextets_symbols (w : Bool) (v : Quad Sextet) : (s.setSextets w v).symbols = s.symbols := rfl
@[simp] theorem State.setSextets_err (w : Bool) (v : Quad Sextet) : (s.setSextets w v).err = s.err := rfl
@[simp] theorem State.setSextets_cnt (w : Bool) (v : Quad Sextet) : (s.setSextets w v).cnt = s.cnt := rfl
@[simp] theorem State.setSextets_statusWritten (w : Bool) (v : Quad Sextet) : (s.setSextets w v).statusWritten = s.statusWritten := rfl
@[simp] theorem State.setSextets_ilen (w : Bool) (v : Quad Sextet) : (s.setSextets w v).ilen = s.ilen := rfl
@[simp] theorem State.setSextets_olen (w : Bool) (v : Quad Sextet) : (s.setSextets w v).olen = s.olen := rfl
@[simp] theorem State.setSextets_ibuf (w : Bool) (v : Quad Sextet) : (s.setSextets w v).ibuf = s.ibuf := rfl
@[simp] theorem State.setSextets_obuf (w : Bool) (v : Quad Sextet) : (s.setSextets w v).obuf = s.obuf := rfl
@[simp] theorem State.setSextets_pending (w : Bool) (v : Quad Sextet) : (s.setSextets w v).pending = s.pending := rfl
@[simp] theorem State.setSextets_returned (w : Bool) (v : Quad Sextet) : (s.setSextets w v).returned = s.returned := rfl
@[simp] theorem State.setSextets_resets (w : Bool) (v : Quad Sextet) : (s.setSextets w v).resets = s.resets := rfl

@[simp] theorem State.setSymbols_config (w : Bool) (v : Quad Symbol) : (s.setSymbols w v).config = s.config := rfl
@[simp] theorem State.setSymbols_bytes (w : Bool) (v : Quad Symbol) : (s.setSymbols w v).bytes = s.bytes := rfl
@[simp] theorem State.setSymbols_sextets (w : Bool) (v : Quad Symbol) : (s.setSymbols w v).sextets = s.sextets := rfl
@[simp] theorem State.setSymbols_symbols (w : Bool) (v : Quad Symbol) : (s.setSymbols w v).symbols = ⟨⟨v.l0, w⟩, ⟨v.l1, w⟩, ⟨v.l2, w⟩, ⟨v.l3, w⟩⟩ := rfl
@[simp] theorem State.setSymbols_err (w : Bool) (v : Quad Symbol) : (s.setSymbols w v).err = s.err := rfl
@[simp] theorem State.setSymbols_cnt (w : Bool) (v : Quad Symbol) : (s.setSymbols w v).cnt = s.cnt := rfl
@[simp] theorem State.setSymbols_statusWritten (w : Bool) (v : Quad Symbol) : (s.setSymbols w v).statusWritten = s.statusWritten := rfl
@[simp] theorem State.setSymbols_ilen (w : Bool) (v : Quad Symbol) : (s.setSymbols w v).ilen = s.ilen := rfl
@[simp] theorem State.setSymbols_olen (w : Bool) (v : Quad Symbol) : (s.setSymbols w v).olen = s.olen := rfl
@[simp] theorem State.setSymbols_ibuf (w : Bool) (v : Quad Symbol) : (s.setSymbols w v).ibuf = s.ibuf := rfl
@[simp] theorem State.setSymbols_obuf (w : Bool) (v : Quad Symbol) : (s.setSymbols w v).obuf = s.obuf := rfl
@[simp] theorem State.setSymbols_pending (w : Bool) (v : Quad Symbol) : (s.setSymbols w v).pending = s.pending := rfl
@[simp] theorem State.setSymbols_returned (w : Bool) (v : Quad Symbol) : (s.setSymbols w v).returned = s.returned := rfl
@[simp] theorem State.setSymbols_resets (w : Bool) (v : Quad Symbol) : (s.setSymbols w v).resets = s.resets := rfl

@[simp] theorem State.setSextet_config (l : Lane) (w : Bool) (v : Sextet) : (s.setSextet l w v).config = s.config := rfl
@[simp] theorem State.setSextet_bytes (l : Lane) (w : Bool) (v : Sextet) : (s.setSextet l w v).bytes = s.bytes := rfl
@[simp] theorem State.setSextet_sextets (l : Lane) (w : Bool) (v : Sextet) : (s.setSextet l w v).sextets = s.sextets.set l ⟨v, w⟩ := rfl
@[simp] theorem State.setSextet_symbols (l : Lane) (w : Bool) (v : Sextet) : (s.setSextet l w v).symbols = s.symbols := rfl
@[simp] theorem State.setSextet_err (l : Lane) (w : Bool) (v : Sextet) : (s.setSextet l w v).err = s.err := rfl
@[simp] theorem State.setSextet_cnt (l : Lane) (w : Bool) (v : Sextet) : (s.setSextet l w v).cnt = s.cnt := rfl
@[simp] theorem State.setSextet_statusWritten (l : Lane) (w : Bool) (v : Sextet) : (s.setSextet l w v).statusWritten = s.statusWritten := rfl
@[simp] theorem State.setSextet_ilen (l : Lane) (w : Bool) (v : Sextet) : (s.setSextet l w v).ilen = s.ilen := rfl
@[simp] theorem State.setSextet_olen (l : Lane) (w : Bool) (v : Sextet) : (s.setSextet l w v).olen = s.olen := rfl
@[simp] theorem State.setSextet_ibuf (l : Lane) (w : Bool) (v : Sextet) : (s.setSextet l w v).ibuf = s.ibuf := rfl
@[simp] theorem State.setSextet_obuf (l : Lane) (w : Bool) (v : Sextet) : (s.setSextet l w v).obuf = s.obuf := rfl
@[simp] theorem State.setSextet_pending (l : Lane) (w : Bool) (v : Sextet) : (s.setSextet l w v).pending = s.pending := rfl
@[simp] theorem State.setSextet_returned (l : Lane) (w : Bool) (v : Sextet) : (s.setSextet l w v).returned = s.returned := rfl
@[simp] theorem State.setSextet_resets (l : Lane) (w : Bool) (v : Sextet) : (s.setSextet l w v).resets = s.resets := rfl

@[simp] theorem State.setSymbol_config (l : Lane) (w : Bool) (v : Symbol) : (s.setSymbol l w v).config = s.config := rfl
@[simp] theorem State.setSymbol_bytes (l : Lane) (w : Bool) (v : Symbol) : (s.setSymbol l w v).bytes = s.bytes := rfl
@[simp] theorem State.setSymbol_sextets (l : Lane) (w : Bool) (v : Symbol) : (s.setSymbol l w v).sextets = s.sextets := rfl
@[simp] theorem State.setSymbol_symbols (l : Lane) (w : Bool) (v : Symbol) : (s.setSymbol l w v).symbols = s.symbols.set l ⟨v, w⟩ := rfl
@[simp] theorem State.setSymbol_err (l : Lane) (w : Bool) (v : Symbol) : (s.setSymbol l w v).err = s.err := rfl
@[simp] theorem State.setSymbol_cnt (l : Lane) (w : Bool) (v : Symbol) : (s.setSymbol l w v).cnt = s.cnt := rfl
@[simp] theorem State.setSymbol_statusWritten (l : Lane) (w : Bool) (v : Symbol) : (s.setSymbol l w v).statusWritten = s.statusWritten := rfl
@[simp] theorem State.setSymbol_ilen (l : Lane) (w : Bool) (v : Symbol) : (s.setSymbol l w v).ilen = s.ilen := rfl
@[simp] theorem State.setSymbol_olen (l : Lane) (w : Bool) (v : Symbol) : (s.setSymbol l w v).olen = s.olen := rfl
@[simp] theorem State.setSymbol_ibuf (l : Lane) (w : Bool) (v : Symbol) : (s.setSymbol l w v).ibuf = s.ibuf := rfl
@[simp] theorem State.setSymbol_obuf (l : Lane) (w : Bool) (v : Symbol) : (s.setSymbol l w v).obuf = s.obuf := rfl
@[simp] theorem State.setSymbol_pending (l : Lane) (w : Bool) (v : Symbol) : (s.setSymbol l w v).pending = s.pending := rfl
@[simp] theorem State.setSymbol_returned (l : Lane) (w : Bool) (v : Symbol) : (s.setSymbol l w v).returned = s.returned := rfl
@[simp] theorem State.setSymbol_resets (l : Lane) (w : Bool) (v : Symbol) : (s.setSymbol l w v).resets = s.resets := rfl

@[simp] theorem State.setOutput_config (out : List Byte) : (s.setOutput out).config = s.config := rfl
@[simp] theorem State.setOutput_bytes (out : List Byte) : (s.setOutput out).bytes = s.bytes := rfl
@[simp] theorem State.setOutput_sextets (out : List Byte) : (s.setOutput out).sextets = s.sextets := rfl
@[simp] theorem State.setOutput_symbols (out : List Byte) : (s.setOutput out).symbols = s.symbols := rfl
@[simp] theorem State.setOutput_err (out : List Byte) : (s.setOutput out).err = s.err := rfl
@[simp] theorem State.setOutput_cnt (out : List Byte) : (s.setOutput out).cnt = s.cnt := rfl
@[simp] theorem State.setOutput_statusWritten (out : List Byte) : (s.setOutput out).statusWritten = s.statusWritten := rfl
@[simp] theorem State.setOutput_ilen (out : List Byte) : (s.setOutput out).ilen = s.ilen := rfl
@[simp] theorem State.setOutput_olen (out : List Byte) : (s.setOutput out).olen = BitVec.ofNat 32 out.length := rfl
@[simp] theorem State.setOutput_ibuf (out : List Byte) : (s.setOutput out).ibuf = s.ibuf := rfl
@[simp] theorem State.setOutput_obuf (out : List Byte) : (s.setOutput out).obuf = Memory.ofUnits 0 out := rfl
@[simp] theorem State.setOutput_pending (out : List Byte) : (s.setOutput out).pending = s.pending := rfl
@[simp] theorem State.setOutput_returned (out : List Byte) : (s.setOutput out).returned = s.returned := rfl
@[simp] theorem State.setOutput_resets (out : List Byte) : (s.setOutput out).resets = s.resets := rfl

@[simp] theorem State.raise_config (w : Bool) (k : ErrorKind) : (s.raise w k).config = s.config := rfl
@[simp] theorem State.raise_bytes (w : Bool) (k : ErrorKind) : (s.raise w k).bytes = s.bytes := rfl
@[simp] theorem State.raise_sextets (w : Bool) (k : ErrorKind) : (s.raise w k).sextets = s.sextets := rfl
@[simp] theorem State.raise_symbols (w : Bool) (k : ErrorKind) : (s.raise w k).symbols = s.symbols := rfl
@[simp] theorem State.raise_err (w : Bool) (k : ErrorKind) : (s.raise w k).err = k.code := rfl
@[simp] theorem State.raise_cnt (w : Bool) (k : ErrorKind) : (s.raise w k).cnt = 0 := rfl
@[simp] theorem State.raise_statusWritten (w : Bool) (k : ErrorKind) : (s.raise w k).statusWritten = w := rfl
@[simp] theorem State.raise_ilen (w : Bool) (k : ErrorKind) : (s.raise w k).ilen = s.ilen := rfl
@[simp] theorem State.raise_olen (w : Bool) (k : ErrorKind) : (s.raise w k).olen = s.olen := rfl
@[simp] theorem State.raise_ibuf (w : Bool) (k : ErrorKind) : (s.raise w k).ibuf = s.ibuf := rfl
@[simp] theorem State.raise_obuf (w : Bool) (k : ErrorKind) : (s.raise w k).obuf = s.obuf := rfl
@[simp] theorem State.raise_pending (w : Bool) (k : ErrorKind) : (s.raise w k).pending = s.pending := rfl
@[simp] theorem State.raise_returned (w : Bool) (k : ErrorKind) : (s.raise w k).returned = s.returned := rfl
@[simp] theorem State.raise_resets (w : Bool) (k : ErrorKind) : (s.raise w k).resets = s.resets := rfl

@[simp] theorem State.raiseBuffer_config (k : ErrorKind) : (s.raiseBuffer k).config = s.config := rfl
@[simp] theorem State.raiseBuffer_bytes (k : ErrorKind) : (s.raiseBuffer k).bytes = s.bytes := rfl
@[simp] theorem State.raiseBuffer_sextets (k : ErrorKind) : (s.raiseBuffer k).sextets = s.sextets := rfl
@[simp] theorem State.raiseBuffer_symbols (k : ErrorKind) : (s.raiseBuffer k).symbols = s.symbols := rfl
@[simp] theorem State.raiseBuffer_err (k : ErrorKind) : (s.raiseBuffer k).err = k.code := rfl
@[simp] theorem State.raiseBuffer_cnt (k : ErrorKind) : (s.raiseBuffer k).cnt = 0 := rfl
@[simp] theorem State.raiseBuffer_statusWritten (k : ErrorKind) : (s.raiseBuffer k).statusWritten = true := rfl
@[simp] theorem State.raiseBuffer_ilen (k : ErrorKind) : (s.raiseBuffer k).ilen = s.ilen := rfl
@[simp] theorem State.raiseBuffer_olen (k : ErrorKind) : (s.raiseBuffer k).olen = 0 := rfl
@[simp] theorem State.raiseBuffer_ibuf (k : ErrorKind) : (s.raiseBuffer k).ibuf = s.ibuf := rfl
@[simp] theorem State.raiseBuffer_obuf (k : ErrorKind) : (s.raiseBuffer k).obuf = [] := rfl
@[simp] theorem State.raiseBuffer_pending (k : ErrorKind) : (s.raiseBuffer k).pending = s.pending := rfl
@[simp] theorem State.raiseBuffer_returned (k : ErrorKind) : (s.raiseBuffer k).returned = s.returned := rfl
@[simp] theorem State.raiseBuffer_resets (k : ErrorKind) : (s.raiseBuffer k).resets = s.resets := rfl

@[simp] theorem State.keepSextet_config (l : Lane) (w : Bool) : (s.keepSextet l w).config = s.config := rfl
@[simp] theorem State.keepSextet_bytes (l : Lane) (w : Bool) : (s.keepSextet l w).bytes = s.bytes := rfl
@[simp] theorem State.keepSextet_sextets (l : Lane) (w : Bool) : (s.keepSextet l w).sextets = s.sextets.set l ((s.sextets.get l).keep w) := rfl
@[simp] theorem State.keepSextet_symbols (l : Lane) (w : Bool) : (s.keepSextet l w).symbols = s.symbols := rfl
@[simp] theorem State.keepSextet_err (l : Lane) (w : Bool) : (s.keepSextet l w).err = s.err := rfl
@[simp] theorem State.keepSextet_cnt (l : Lane) (w : Bool) : (s.keepSextet l w).cnt = s.cnt := rfl
@[simp] theorem State.keepSextet_statusWritten (l : Lane) (w : Bool) : (s.keepSextet l w).statusWritten = s.statusWritten := rfl
@[simp] theorem State.keepSextet_ilen (l : Lane) (w : Bool) : (s.keepSextet l w).ilen = s.ilen := rfl
@[simp] theorem State.keepSextet_olen (l : Lane) (w : Bool) : (s.keepSextet l w).olen = s.olen := rfl
@[simp] theorem State.keepSextet_ibuf (l : Lane) (w : Bool) : (s.keepSextet l w).ibuf = s.ibuf := rfl
@[simp] theorem State.keepSextet_obuf (l : Lane) (w : Bool) : (s.keepSextet l w).obuf = s.obuf := rfl
@[simp] theorem State.keepSextet_pending (l : Lane) (w : Bool) : (s.keepSextet l w).pending = s.pending := rfl
@[simp] theorem State.keepSextet_returned (l : Lane) (w : Bool) : (s.keepSextet l w).returned = s.returned := rfl
@[simp] theorem State.keepSextet_resets (l : Lane) (w : Bool) : (s.keepSextet l w).resets = s.resets := rfl

@[simp] theorem State.keepSymbol_config (l : Lane) (w : Bool) : (s.keepSymbol l w).config = s.config := rfl
@[simp] theorem State.keepSymbol_bytes (l : Lane) (w : Bool) : (s.keepSymbol l w).bytes = s.bytes := rfl
@[simp] theorem State.keepSymbol_sextets (l : Lane) (w : Bool) : (s.keepSymbol l w).sextets = s.sextets := rfl
@[simp] theorem State.keepSymbol_symbols (l : Lane) (w : Bool) : (s.keepSymbol l w).symbols = s.symbols.set l ((s.symbols.get l).keep w) := rfl
@[simp] theorem State.keepSymbol_err (l : Lane) (w : Bool) : (s.keepSymbol l w).err = s.err := rfl
@[simp] theorem State.keepSymbol_cnt (l : Lane) (w : Bool) : (s.keepSymbol l w).cnt = s.cnt := rfl
@[simp] theorem State.keepSymbol_statusWritten (l : Lane) (w : Bool) : (s.keepSymbol l w).statusWritten = s.statusWritten := rfl
@[simp] theorem State.keepSymbol_ilen (l : Lane) (w : Bool) : (s.keepSymbol l w).ilen = s.ilen := rfl
@[simp] theorem State.keepSymbol_olen (l : Lane) (w : Bool) : (s.keepSymbol l w).olen = s.olen := rfl
@[simp] theorem State.keepSymbol_ibuf (l : Lane) (w : Bool) : (s.keepSymbol l w).ibuf = s.ibuf := rfl
@[simp] theorem State.keepSymbol_obuf (l : Lane) (w : Bool) : (s.keepSymbol l w).obuf = s.obuf := rfl
@[simp] theorem State.keepSymbol_pending (l : Lane) (w : Bool) : (s.keepSymbol l w).pending = s.pending := rfl
@[simp] theorem State.keepSymbol_returned (l : Lane) (w : Bool) : (s.keepSymbol l w).returned = s.returned := rfl
@[simp] theorem State.keepSymbol_resets (l : Lane) (w : Bool) : (s.keepSymbol l w).resets = s.resets := rfl

@[simp] theorem State.keepGroup_config (w : Bool) : (s.keepGroup w).config = s.config := rfl
@[simp] theorem State.keepGroup_bytes (w : Bool) : (s.keepGroup w).bytes = ⟨s.bytes.l0.keep w, s.bytes.l1.keep w, s.bytes.l2.keep w⟩ := rfl
@[simp] theorem State.keepGroup_sextets (w : Bool) : (s.keepGroup w).sextets = ⟨s.sextets.l0.keep w, s.sextets.l1.keep w, s.sextets.l2.keep w, s.sextets.l3.keep w⟩ := rfl
@[simp] theorem State.keepGroup_symbols (w : Bool) : (s.keepGroup w).symbols = s.symbols := rfl
@[simp] theorem State.keepGroup_err (w : Bool) : (s.keepGroup w).err = s.err := rfl
@[simp] theorem State.keepGroup_cnt (w : Bool) : (s.keepGroup w).cnt = s.cnt := rfl
@[simp] theorem State.keepGroup_statusWritten (w : Bool) : (s.keepGroup w).statusWritten = s.statusWritten := rfl
@[simp] theorem State.keepGroup_ilen (w : Bool) : (s.keepGroup w).ilen = s.ilen := rfl
@[simp] theorem State.keepGroup_olen (w : Bool) : (s.keepGroup w).olen = s.olen := rfl
@[simp] theorem State.keepGroup_ibuf (w : Bool) : (s.keepGroup w).ibuf = s.ibuf := rfl
@[simp] theorem State.keepGroup_obuf (w : Bool) : (s.keepGroup w).obuf = s.obuf := rfl
@[simp] theorem State.keepGroup_pending (w : Bool) : (s.keepGroup w).pending = s.pending := rfl
@[simp] theorem State.keepGroup_returned (w : Bool) : (s.keepGroup w).returned = s.returned := rfl
@[simp] theorem State.keepGroup_resets (w : Bool) : (s.keepGroup w).resets = s.resets := rfl

@[simp] theorem State.return_config (v : PortValue) : (s.return v).config = s.config := rfl
@[simp] theorem State.return_bytes (v : PortValue) : (s.return v).bytes = s.bytes := rfl
@[simp] theorem State.return_sextets (v : PortValue) : (s.return v).sextets = s.sextets := rfl
@[simp] theorem State.return_symbols (v : PortValue) : (s.return v).symbols = s.symbols := rfl
@[simp] theorem State.return_err (v : PortValue) : (s.return v).err = s.err := rfl
@[simp] theorem State.return_cnt (v : PortValue) : (s.return v).cnt = s.cnt := rfl
@[simp] theorem State.return_statusWritten (v : PortValue) : (s.return v).statusWritten = s.statusWritten := rfl
@[simp] theorem State.return_ilen (v : PortValue) : (s.return v).ilen = s.ilen := rfl
@[simp] theorem State.return_olen (v : PortValue) : (s.return v).olen = s.olen := rfl
@[simp] theorem State.return_ibuf (v : PortValue) : (s.return v).ibuf = s.ibuf := rfl
@[simp] theorem State.return_obuf (v : PortValue) : (s.return v).obuf = s.obuf := rfl
@[simp] theorem State.return_pending (v : PortValue) : (s.return v).pending = s.pending := rfl
@[simp] theorem State.return_returned (v : PortValue) : (s.return v).returned = v :: s.returned := rfl
@[simp] theorem State.return_resets (v : PortValue) : (s.return v).resets = s.resets := rfl

end Machine

end Sys2Proof
end

