-- ==== Sys2Proof/Laws/Exec.lean ====
section
/-! SUPPORT. Laws/Exec.lean: what a command can do, said once: later proofs cite `exec_next_cases` and do not unfold the
meanings for facts that hold of all of them. -/

namespace Sys2Proof.Machine

/-- ENCODE: bad length, a never-written input, or the encoded text. -/
theorem execEncode_next {s t : State} (h : execEncode s = .next t) :
    (s.config.ibufCap < s.ilen.toNat ∧ t = s.raiseBuffer .badLength) ∨
    (s.ilen.toNat ≤ s.config.ibufCap ∧ ∃ x, s.ibuf.readUnits 0 s.ilen.toNat = some x ∧
      t = (s.setOutput (textOf (encodeBytes s.config x))).complete true 0) := by
  unfold execEncode at h
  split_ifs at h with hc
  · cases h; exact .inl ⟨hc, rfl⟩
  · split at h
    · rename_i x hx; cases h; exact .inr ⟨by omega, x, hx, rfl⟩
    · cases h

/-- DECODE: bad length, a length error, a never-written input, or what `Decode` answers. -/
theorem execDecode_next {s t : State} (h : execDecode s = .next t) :
    (s.config.ibufCap < s.ilen.toNat ∧ t = s.raiseBuffer .badLength) ∨
    (s.ilen.toNat ≤ s.config.ibufCap ∧ ∃ k, lengthError s.ilen.toNat = some k ∧ t = s.raiseBuffer k) ∨
    (s.ilen.toNat ≤ s.config.ibufCap ∧ lengthError s.ilen.toNat = none ∧
      ∃ us, s.ibuf.readUnits 0 s.ilen.toNat = some us ∧
        ((∃ bs, decodeText s.config us = .ok bs ∧ t = (s.setOutput bs).complete true 0) ∨
         (∃ k, decodeText s.config us = .error k ∧ t = s.raiseBuffer k))) := by
  unfold execDecode at h
  split_ifs at h with hc
  · cases h; exact .inl ⟨hc, rfl⟩
  · refine .inr ?_
    split at h
    · rename_i k hk; cases h; exact .inl ⟨by omega, k, hk, rfl⟩
    · rename_i hl
      split at h
      · cases h
      · rename_i us hu
        refine .inr ⟨by omega, hl, us, hu, ?_⟩
        split at h <;> cases h
        · rename_i bs hb; exact .inl ⟨bs, hb, rfl⟩
        · rename_i k hk; exact .inr ⟨k, hk, rfl⟩

/-- What a command can do when it answers a next state: new lanes and `OK`; an error, which
leaves every lane's value; an error of a buffer
command; an output that fits OBUF. -/
theorem exec_next_cases {i : Instr} {s t : State} (h : exec i s = .next t) :
    (∃ b x y n w, t = { s with bytes := b, sextets := x, symbols := y, err := 0, cnt := n, statusWritten := w }) ∨
    (∃ (k : ErrorKind) (b : Triple (LaneReg 8)) (x : Quad (LaneReg 6)) (y : Quad (LaneReg 24)) (w : Bool),
      k ≠ .internalInconsistency ∧
      t = { s with bytes := b, sextets := x, symbols := y, err := k.code, cnt := 0, statusWritten := w } ∧
      t.byteValues = s.byteValues ∧ t.sextetValues = s.sextetValues ∧ t.symbolValues = s.symbolValues) ∨
    ((i = .encode ∨ i = .decode) ∧ ∃ k, k ≠ .internalInconsistency ∧ t = s.raiseBuffer k) ∨
    ((i = .encode ∨ i = .decode) ∧ ∃ out, out.length ≤ s.config.obufCap ∧ t = (s.setOutput out).complete true 0) := by
  have hcap := s.config.admitted.2.2.2.2.1
  cases i with
  | pack3 | pack2 | pack1 | unpk4 | unpk3 | unpk2 => cases h; exact .inl ⟨_, _, _, _, _, rfl⟩
  | symat a l =>
    cases h
    split
    · exact .inl ⟨_, _, _, _, _, rfl⟩
    · exact .inr (.inl ⟨.indexRange, _, _, _, _, by decide, rfl, rfl, rfl, s.symbolValues_keepSymbol l _⟩)
  | idxof a l =>
    cases h
    split
    · exact .inl ⟨_, _, _, _, _, rfl⟩
    · exact .inr (.inl ⟨.symbolNotFound, _, _, _, _, by decide, rfl, rfl, s.sextetValues_keepSextet l _, rfl⟩)
  | gfmt n =>
    simp only [exec, execGfmt] at h
    split at h <;> cases h
    · exact .inr (.inl ⟨.illegalCommand, _, _, _, _, by decide, rfl, rfl, rfl, rfl⟩)
    · exact .inl ⟨_, _, _, _, _, rfl⟩
  | gval f =>
    cases h
    generalize (if f = true then trailingPadding s.config s.symbolValues else 0) = p
    split
    · exact .inr (.inl ⟨.excessPadding, _, _, _, _, by decide, rfl, rfl, rfl, rfl⟩)
    · split
      · exact .inl ⟨_, _, _, _, _, rfl⟩
      · exact .inr (.inl ⟨.symbolNotFound, _, _, _, _, by decide, rfl, rfl, rfl, rfl⟩)
  | encode =>
    rcases execEncode_next h with ⟨-, rfl⟩ | ⟨hc, x, hx, rfl⟩
    · exact .inr (.inr (.inl ⟨.inl rfl, .badLength, by decide, rfl⟩))
    · have hl := (Memory.readUnits_eq_some.1 hx).1
      refine .inr (.inr (.inr ⟨.inl rfl, _, ?_, rfl⟩))
      simp only [textOf_length, encodeBytes_length, hl]
      omega
  | decode =>
    rcases execDecode_next h with ⟨-, rfl⟩ | ⟨-, k, hk, rfl⟩ | ⟨hc, -, us, hu, ⟨bs, hb, rfl⟩ | ⟨k, hk, rfl⟩⟩
    · exact .inr (.inr (.inl ⟨.inr rfl, .badLength, by decide, rfl⟩))
    · refine .inr (.inr (.inl ⟨.inr rfl, k, ?_, rfl⟩))
      rcases lengthError_kind hk with rfl | rfl <;> decide
    · have hl := (Memory.readUnits_eq_some.1 hu).1
      have := decodeText_length_le hb
      exact .inr (.inr (.inr ⟨.inr rfl, bs, by omega, rfl⟩))
    · refine .inr (.inr (.inl ⟨.inr rfl, k, ?_, rfl⟩))
      rcases decodeText_kind hk with rfl | rfl | rfl | rfl <;> decide

end Sys2Proof.Machine
end

