-- ==== Sys2Proof/Laws/PerInstr.lean ====
section
/-! SUPPORT. Laws/PerInstr.lean: one family of laws, one lemma per command: the word of a well-formed command is selected by
the mask and the match of its own row of `30_encoding.md` R78. -/

namespace Sys2Proof.Laws

/-- The mask of a command's row (R78). -/
def rowMask : Instr → Word
  | .pack3 | .pack2 | .pack1 | .unpk4 | .unpk3 | .unpk2 => 0xFFFFFFFF
  | .symat _ _ | .idxof _ _ => 0xFFFFFFF8
  | .gfmt _ => 0xFFFFFFFC
  | .gval _ => 0xFFFFFFFE
  | .encode | .decode => 0xFFFFFFFF

/-- The match of a command's row (R78). -/
def rowMatch : Instr → Word
  | .pack3 => 0x01000000
  | .pack2 => 0x02000000
  | .pack1 => 0x03000000
  | .unpk4 => 0x04000000
  | .unpk3 => 0x05000000
  | .unpk2 => 0x06000000
  | .symat _ _ => 0x08000000
  | .idxof _ _ => 0x09000000
  | .gfmt _ => 0x0A000000
  | .gval _ => 0x0B000000
  | .encode => 0x10000000
  | .decode => 0x11000000

/-- The word of a well-formed command lies in its own row (R78), and GFMT's is not the illegal word `N` = 0 (R79). -/
def EncodesRow.Statement (i : Instr) : Prop :=
  i.wellFormed = true → encode i &&& rowMask i = rowMatch i ∧ encode i ≠ 0x0A000000

theorem EncodesRow.pack3 : EncodesRow.Statement .pack3 := fun _ => by decide
theorem EncodesRow.pack2 : EncodesRow.Statement .pack2 := fun _ => by decide
theorem EncodesRow.pack1 : EncodesRow.Statement .pack1 := fun _ => by decide
theorem EncodesRow.unpk4 : EncodesRow.Statement .unpk4 := fun _ => by decide
theorem EncodesRow.unpk3 : EncodesRow.Statement .unpk3 := fun _ => by decide
theorem EncodesRow.unpk2 : EncodesRow.Statement .unpk2 := fun _ => by decide

theorem EncodesRow.symat (a : Alphabet) (l : Lane) : EncodesRow.Statement (.symat a l) := fun _ => by
  cases a <;> cases l <;> decide

theorem EncodesRow.idxof (a : Alphabet) (l : Lane) : EncodesRow.Statement (.idxof a l) := fun _ => by
  cases a <;> cases l <;> decide

theorem EncodesRow.gfmt (n : BitVec 2) : EncodesRow.Statement (.gfmt n) := by
  unfold EncodesRow.Statement; revert n; decide

theorem EncodesRow.gval (final : Bool) : EncodesRow.Statement (.gval final) := fun _ => by cases final <;> decide

theorem EncodesRow.encode : EncodesRow.Statement .encode := fun _ => by decide
theorem EncodesRow.decode : EncodesRow.Statement .decode := fun _ => by decide

end Sys2Proof.Laws
end

