-- ==== Sys2Proof/Laws/Port.lean ====
section
/-! SUPPORT. Laws/Port.lean: what taking a host event and one step can do, said once: later proofs cite these lemmas and do
not unfold `step`, `fetch` or `takeEvent`. -/

namespace Sys2Proof.Machine

/-- What `portRead` answers when it answers a next state: one value handed back, nothing else. -/
theorem portRead_next {offset : Nat} {g : PortTarget} {s t : State} (h : portRead offset g s = .next t) :
    ∃ v, t = s.return v := by
  cases g with
  | reg r => cases h; exact ⟨_, rfl⟩
  | input i | output i => simp only [portRead] at h; split at h <;> cases h; exact ⟨_, rfl⟩

/-- The index of a mapped unit of IBUF is below the capacity (R57). -/
theorem portTarget_input {c : Config} {offset i : Nat} (h : portTarget c offset = some (.input i)) :
    i < c.ibufCap ∧ offset = c.ibufBase + i := by
  unfold portTarget at h
  split at h
  · cases h
  · split_ifs at h with h1 h2
    · cases h; omega
    · cases h

/-- The index of a mapped unit of OBUF is below the capacity (R57). -/
theorem portTarget_output {c : Config} {offset i : Nat} (h : portTarget c offset = some (.output i)) :
    i < c.obufCap ∧ offset = c.obufBase + i := by
  unfold portTarget at h
  split at h
  · cases h
  · split_ifs at h with h1 h2
    · cases h
    · cases h; omega

/-- A register's offset is mapped to it. -/
theorem portTarget_reg {c : Config} {offset : Nat} {r : PortReg} (h : regAt offset = some r) :
    portTarget c offset = some (.reg r) := by
  simp [portTarget, h]

/-- What taking a host event comes to, when it is no stop. -/
theorem takeEvent_cases {e : HostEvent} {s : State} {f : Fetched} (h : takeEvent e s = f)
    (hf : ∀ o, f = .complete o → ∃ t, o = .next t) :
    (e = .reset ∧ f = .complete (.next s.applyReset)) ∨
    (∃ offset width v, e = .read offset width ∧ f = .complete (.next (s.return v))) ∨
    (∃ offset width v g, e = .write offset width v ∧ portTarget s.config offset = some g ∧ g.width = width ∧
      g ≠ .reg .cmd ∧ f = .complete (.next (portWrite g v s))) ∨
    (∃ offset v, e = .write offset 32 v ∧ portTarget s.config offset = some (.reg .cmd) ∧ f = .command v s) := by
  cases e with
  | reset => exact .inl ⟨rfl, h.symm⟩
  | read offset width =>
    simp only [takeEvent] at h
    split at h
    · obtain ⟨t, ht⟩ := hf _ h.symm; cases ht
    · rename_i g hg
      obtain ⟨t, ht⟩ := hf _ h.symm
      split_ifs at ht h with hw
      obtain ⟨v, rfl⟩ := portRead_next ht
      exact .inr (.inl ⟨offset, width, v, rfl, by rw [← h, ht]⟩)
  | write offset width v =>
    simp only [takeEvent] at h
    split at h
    · obtain ⟨t, ht⟩ := hf _ h.symm; cases ht
    · rename_i g hg
      split_ifs at h with hw hc
      · subst hc; subst hw
        exact .inr (.inr (.inr ⟨offset, v, rfl, hg, h.symm⟩))
      · exact .inr (.inr (.inl ⟨offset, width, v, g, rfl, hg, hw, hc, h.symm⟩))
      · obtain ⟨t, ht⟩ := hf _ h.symm; cases ht

/-- What one step can do when it answers a next state: nothing (idle), a reset, a read, a write of a place other than CMD, a
command, or an illegal word reported. -/
theorem step_next_cases {s t : State} (h : step s = .next t) :
    (s.pending = [] ∧ t = s) ∨
    ∃ e rest, s.pending = e :: rest ∧
      ((e = .reset ∧ t = State.applyReset { s with pending := rest }) ∨
       (∃ offset width v, e = .read offset width ∧ t = State.return v { s with pending := rest }) ∨
       (∃ offset width v g, e = .write offset width v ∧ portTarget s.config offset = some g ∧ g.width = width ∧
          g ≠ .reg .cmd ∧ t = portWrite g v { s with pending := rest }) ∨
       (∃ offset w i, e = .write offset 32 w ∧ portTarget s.config offset = some (.reg .cmd) ∧ decode w = .ok i ∧
          exec i { s with pending := rest } = .next t) ∨
       (∃ offset w r, e = .write offset 32 w ∧ portTarget s.config offset = some (.reg .cmd) ∧ decode w = .error r ∧
          t = State.raise true .illegalCommand { s with pending := rest })) := by
  unfold step fetch at h
  cases hp : s.pending with
  | nil => simp only [hp] at h; cases h; exact .inl ⟨rfl, rfl⟩
  | cons e rest =>
    refine .inr ⟨e, rest, rfl, ?_⟩
    simp only [hp] at h
    have hc := takeEvent_cases (e := e) (s := { s with pending := rest }) rfl (fun o ho => by
      rw [ho] at h; exact ⟨t, h⟩)
    rcases hc with ⟨rfl, hf⟩ | ⟨offset, width, v, rfl, hf⟩ | ⟨offset, width, v, g, rfl, hg, hw, hne, hf⟩ |
        ⟨offset, v, rfl, hg, hf⟩ <;> rw [hf] at h
    · cases h; exact .inl ⟨rfl, rfl⟩
    · cases h; exact .inr (.inl ⟨offset, width, v, rfl, rfl⟩)
    · cases h; exact .inr (.inr (.inl ⟨offset, width, v, g, rfl, hg, hw, hne, rfl⟩))
    · cases hd : decode v with
      | ok i => exact .inr (.inr (.inr (.inl ⟨offset, v, i, rfl, hg, hd, by simpa [hd] using h⟩)))
      | error r =>
        refine .inr (.inr (.inr (.inr ⟨offset, v, r, rfl, hg, hd, ?_⟩)))
        simp only [hd, execIllegal] at h
        cases h; rfl

end Sys2Proof.Machine
end

