-- ==== Sys2Proof/Laws/Sources.lean ====
section
/-! SUPPORT. Laws/Sources.lean: the mark each command on the lanes gives its destination is `sourcesWritten` of it. -/

namespace Sys2Proof.Machine

variable (s : State)

theorem sourcesWritten_pack3 : sourcesWritten .pack3 s = s.bytesWritten 3 := by simp [sourcesWritten, State.bytesWritten]
theorem sourcesWritten_pack2 : sourcesWritten .pack2 s = s.bytesWritten 2 := by simp [sourcesWritten, State.bytesWritten]
theorem sourcesWritten_pack1 : sourcesWritten .pack1 s = s.bytesWritten 1 := by simp [sourcesWritten, State.bytesWritten]
theorem sourcesWritten_unpk4 : sourcesWritten .unpk4 s = s.sextetsWritten 4 := by
  simp [sourcesWritten, State.sextetsWritten]
theorem sourcesWritten_unpk3 : sourcesWritten .unpk3 s = s.sextetsWritten 3 := by
  simp [sourcesWritten, State.sextetsWritten]
theorem sourcesWritten_unpk2 : sourcesWritten .unpk2 s = s.sextetsWritten 2 := by
  simp [sourcesWritten, State.sextetsWritten]
theorem sourcesWritten_gval (f : Bool) : sourcesWritten (.gval f) s = s.symbolsWritten := rfl

/-- GFMT of a well-formed count marks by the byte lanes it reads. -/
theorem sourcesWritten_gfmt {n : BitVec 2} (h : n ≠ 0) : sourcesWritten (.gfmt n) s = s.bytesWritten n.toNat := by
  have hn : n = 1 ∨ n = 2 ∨ n = 3 := by revert n; decide
  rcases hn with rfl | rfl | rfl <;> simp [sourcesWritten, State.bytesWritten]

/-- The host's list is no source of a command. -/
theorem sourcesWritten_pending (i : Instr) (l : List HostEvent) :
    sourcesWritten i { s with pending := l } = sourcesWritten i s := by cases i <;> rfl

end Sys2Proof.Machine
end

