-- ==== Sys2Proof/Tests/Slice0.lean ====
section
/-! SUPPORT. Tests/Slice0.lean: the refusals of WellFormed and of the configuration gate, words written out bit by bit from
the formats of `30_encoding.md` R76 to R79, one or two vectors of `95_test_vectors.md` per command (the vector's id is in
the comment: its values are the spec's), and a witness for the hypotheses of every statement that has some. -/

namespace Sys2Proof.Tests

open Sys2Proof.Machine

/-! ## Well-formedness -/

/-- R79: GFMT with `N` = 0 is no command. -/
theorem test_gfmt_zero_ill_formed : Instr.wellFormed (.gfmt 0) = false := by decide

theorem test_gfmt_well_formed : Instr.wellFormed (.gfmt 1) = true ∧ Instr.wellFormed (.gfmt 3) = true := by decide

/-- R9: a data code that is also a padding code is refused. -/
theorem test_overlapping_alphabets_refused :
    Config.ofRaw { RawConfig.default with alphaP := (List.range 8).map fun i => BitVec.ofNat 24 (0xE4B780 + i) } = none :=
  dif_neg fun h => (by decide : ¬ (RawConfig.default.alphaD ++
    (List.range 8).map fun i => BitVec.ofNat 24 (0xE4B780 + i)).Nodup) h.2.2.1

/-- R9: a data table of 63 entries is refused. -/
theorem test_short_alphabet_refused :
    Config.ofRaw { RawConfig.default with alphaD := RawConfig.default.alphaD.take 63 } = none :=
  dif_neg fun h => (by decide : ¬ (RawConfig.default.alphaD.take 63).length = 64) h.1

/-- R8: an output buffer too small for the longest input is refused. -/
theorem test_small_output_buffer_refused : Config.ofRaw { RawConfig.default with obufCap := 12287 } = none :=
  dif_neg fun h => (by decide : ¬ 12 * ((3072 + 2) / 3) ≤ 12287) h.2.2.2.2.1

/-! ## Decoding: words bit by bit from the formats (R76, R77) -/

theorem test_word_pack3 : decode (0b00000001#8 ++ 0#16 ++ 0b00000000#8) = .ok .pack3 := by decide
theorem test_word_pack2 : decode (0b00000010#8 ++ 0#16 ++ 0b00000000#8) = .ok .pack2 := by decide
theorem test_word_pack1 : decode (0b00000011#8 ++ 0#16 ++ 0b00000000#8) = .ok .pack1 := by decide
theorem test_word_unpk4 : decode (0b00000100#8 ++ 0#16 ++ 0b00000000#8) = .ok .unpk4 := by decide
theorem test_word_unpk3 : decode (0b00000101#8 ++ 0#16 ++ 0b00000000#8) = .ok .unpk3 := by decide
theorem test_word_unpk2 : decode (0b00000110#8 ++ 0#16 ++ 0b00000000#8) = .ok .unpk2 := by decide
/-- Format L: `A` = 0, `L` = 10. -/
theorem test_word_symat : decode (0b00001000#8 ++ 0#16 ++ 0b00000010#8) = .ok (.symat .data .l2) := by decide
/-- Format L: `A` = 1, `L` = 01. -/
theorem test_word_idxof : decode (0b00001001#8 ++ 0#16 ++ 0b00000101#8) = .ok (.idxof .padding .l1) := by decide
/-- Format N: `N` = 10. -/
theorem test_word_gfmt : decode (0b00001010#8 ++ 0#16 ++ 0b00000010#8) = .ok (.gfmt 2) := by decide
/-- Format F: `F` = 1. -/
theorem test_word_gval : decode (0b00001011#8 ++ 0#16 ++ 0b00000001#8) = .ok (.gval true) := by decide
theorem test_word_encode : decode (0b00010000#8 ++ 0#16 ++ 0b00000000#8) = .ok .encode := by decide
theorem test_word_decode : decode (0b00010001#8 ++ 0#16 ++ 0b00000000#8) = .ok .decode := by decide

/-- W-14, W-15, W-16, W-20: each reason for which a word is no command. -/
theorem test_illegal_words :
    decode 0x0F000000 = .error .unassignedOpcode ∧ decode 0x0A000000 = .error .gfmtZero ∧
    decode 0x0A000004 = .error .argumentBits ∧ decode 0x01800000 = .error .reservedBits := by decide

/-- The table word of a row decodes to its command. -/
theorem test_table_word : decodeTableWord 32 0x0B000001 = some (.gval true) ∧ decodeTableWord 32 0x0A000000 = none := by
  decide

/-! ## Small states -/

/-- The state after reset with every lane written. -/
def lanes (b : Triple Byte) (x : Quad Sextet) (y : Quad Symbol) : State :=
  ((State.reset.setBytes true b).setSextets true x).setSymbols true y

/-- A state with all lanes written, `B` as in vector B-3. -/
def full : State := lanes ⟨0x4D, 0x61, 0x6E⟩ ⟨19, 22, 5, 46⟩ ⟨0xE4B793, 0xE4B796, 0xE4B785, 0xE4B7AE⟩

/-- Only the byte lanes differ from zero. -/
def withBytes (b0 b1 b2 : Byte) : State := lanes ⟨b0, b1, b2⟩ ⟨0, 0, 0, 0⟩ ⟨0, 0, 0, 0⟩

/-- Only the sextet lanes differ from zero. -/
def withSextets (s0 s1 s2 s3 : Sextet) : State := lanes ⟨0, 0, 0⟩ ⟨s0, s1, s2, s3⟩ ⟨0, 0, 0, 0⟩

/-- Only the symbol lanes differ from zero. -/
def withSymbols (y0 y1 y2 y3 : Symbol) : State := lanes ⟨0, 0, 0⟩ ⟨0, 0, 0, 0⟩ ⟨y0, y1, y2, y3⟩

/-- The state after reset with the units of an input and their number in ILEN. -/
def withInput (us : List Byte) : State :=
  { State.reset with ibuf := Memory.ofUnits 0 us, ilen := BitVec.ofNat 32 us.length }

/-- The state after reset with host events to take. -/
def withEvents (es : List HostEvent) : State := { State.reset with pending := es }

/-- The next state, if there is one. -/
def nextOf (o : Host.Outcome State Fault Refusal) : Option State :=
  match o with
  | .next t => some t
  | .fault _ => none
  | .refused _ => none

/-- Sextet lanes and STATUS after a command. -/
def sextetsAfter (i : Instr) (s : State) : Option (Quad Sextet × BitVec 4 × BitVec 2) :=
  (nextOf (exec i s)).map fun t => (t.sextetValues, t.err, t.cnt)

/-- Byte lanes and STATUS after a command. -/
def bytesAfter (i : Instr) (s : State) : Option (Triple Byte × BitVec 4 × BitVec 2) :=
  (nextOf (exec i s)).map fun t => (t.byteValues, t.err, t.cnt)

/-- Symbol lanes and STATUS after a command. -/
def symbolsAfter (i : Instr) (s : State) : Option (Quad Symbol × BitVec 4 × BitVec 2) :=
  (nextOf (exec i s)).map fun t => (t.symbolValues, t.err, t.cnt)

/-- OBUF, OLEN and ERR after a command. -/
def outputAfter (i : Instr) (s : State) : Option (List Byte × Word × BitVec 4) :=
  (nextOf (exec i s)).map fun t => (t.obuf.map Prod.snd, t.olen, t.err)

/-! ## Vectors of the spec -/

/-- B-9. -/
theorem test_pack3 : sextetsAfter .pack3 (withBytes 0xAB 0xCD 0xEF) = some (⟨42, 60, 55, 47⟩, 0, 0) := by decide
/-- B-10. -/
theorem test_pack3_straddle : sextetsAfter .pack3 (withBytes 0x03 0xF0 0x00) = some (⟨0, 63, 0, 0⟩, 0, 0) := by decide
/-- B-13. -/
theorem test_pack2 : sextetsAfter .pack2 (withBytes 0x4D 0x61 0x6E) = some (⟨19, 22, 4, 0⟩, 0, 0) := by decide
/-- B-12. -/
theorem test_pack2_ones : sextetsAfter .pack2 (withBytes 0xFF 0xFF 0x55) = some (⟨63, 63, 60, 0⟩, 0, 0) := by decide
/-- B-20. -/
theorem test_pack1 : sextetsAfter .pack1 (withBytes 0x4D 0x61 0x6E) = some (⟨19, 16, 0, 0⟩, 0, 0) := by decide
/-- B-18. -/
theorem test_pack1_low : sextetsAfter .pack1 (withBytes 0x03 0xFF 0xFF) = some (⟨0, 48, 0, 0⟩, 0, 0) := by decide
/-- B-25. -/
theorem test_unpk4 : bytesAfter .unpk4 (withSextets 1 2 3 4) = some (⟨0x04, 0x20, 0xC4⟩, 0, 0) := by decide
/-- B-22. -/
theorem test_unpk4_text : bytesAfter .unpk4 (withSextets 19 22 5 46) = some (⟨0x4D, 0x61, 0x6E⟩, 0, 0) := by decide
/-- B-28. -/
theorem test_unpk3 : bytesAfter .unpk3 (withSextets 19 22 4 63) = some (⟨0x4D, 0x61, 0x00⟩, 0, 0) := by decide
/-- B-27. -/
theorem test_unpk3_low : bytesAfter .unpk3 (withSextets 0 16 11 9) = some (⟨0x01, 0x02, 0x00⟩, 0, 0) := by decide
/-- B-32. -/
theorem test_unpk2 : bytesAfter .unpk2 (withSextets 19 16 63 63) = some (⟨0x4D, 0, 0⟩, 0, 0) := by decide
/-- B-33. -/
theorem test_unpk2_low : bytesAfter .unpk2 (withSextets 0 15 63 63) = some (⟨0x00, 0, 0⟩, 0, 0) := by decide

/-- A-2. -/
theorem test_symat : symbolsAfter (.symat .data .l3) (withSextets 0 0 0 63) = some (⟨0, 0, 0, 0xE4B7BF⟩, 0, 0) := by
  decide
/-- A-6: index 8 has no padding entry; `Y1` keeps its value. -/
theorem test_symat_range :
    symbolsAfter (.symat .padding .l1) (lanes ⟨0, 0, 0⟩ ⟨0, 8, 0, 0⟩ ⟨0, 0xE4B785, 0, 0⟩) =
      some (⟨0, 0xE4B785, 0, 0⟩, 6, 0) := by decide
/-- A-11. -/
theorem test_idxof : sextetsAfter (.idxof .padding .l3) (withSymbols 0 0 0 0xE298B7) = some (⟨0, 0, 0, 7⟩, 0, 0) := by
  decide
/-- A-12: a padding symbol is not in the data alphabet; `S3` keeps its value. -/
theorem test_idxof_missing :
    sextetsAfter (.idxof .data .l3) (lanes ⟨0, 0, 0⟩ ⟨0, 0, 0, 5⟩ ⟨0, 0, 0, 0xE298B0⟩) = some (⟨0, 0, 0, 5⟩, 4, 0) := by
  decide

/-- E-2. -/
theorem test_gfmt2 :
    symbolsAfter (.gfmt 2) (withBytes 0x4D 0x61 0xFF) = some (⟨0xE4B793, 0xE4B796, 0xE4B784, 0xE298B0⟩, 0, 0) := by decide
/-- E-3, both destination files. -/
theorem test_gfmt1 :
    symbolsAfter (.gfmt 1) (withBytes 0x4D 0xFF 0xFF) = some (⟨0xE4B793, 0xE4B790, 0xE298B0, 0xE298B0⟩, 0, 0) ∧
    sextetsAfter (.gfmt 1) (withBytes 0x4D 0xFF 0xFF) = some (⟨19, 16, 0, 0⟩, 0, 0) := by decide

/-- V-5: any padding entry counts, and the dropped bits of sextet 1 stay in `S1`. -/
theorem test_gval_final :
    bytesAfter (.gval true) (withSymbols 0xE4B7BF 0xE4B7BF 0xE298B7 0xE298B7) = some (⟨0xFF, 0, 0⟩, 0, 1) ∧
    sextetsAfter (.gval true) (withSymbols 0xE4B7BF 0xE4B7BF 0xE298B7 0xE298B7) = some (⟨63, 63, 0, 0⟩, 0, 1) := by decide
/-- V-14, V-17, V-12: which check fails first. -/
theorem test_gval_errors :
    bytesAfter (.gval true) (withSymbols 0xE4B780 0xE298B0 0xE4B788 0xE298B0) = some (⟨0, 0, 0⟩, 4, 0) ∧
    bytesAfter (.gval true) (withSymbols 0x000041 0xE298B0 0xE298B0 0xE298B0) = some (⟨0, 0, 0⟩, 3, 0) ∧
    bytesAfter (.gval false) (withSymbols 0xE298B0 0xE298B0 0xE298B0 0xE298B0) = some (⟨0, 0, 0⟩, 4, 0) := by decide

/-- E-18. -/
theorem test_encode :
    outputAfter .encode (withInput [0x12, 0x34, 0x56, 0x78]) = some (
      [0xE4, 0xB7, 0x84, 0xE4, 0xB7, 0xA3, 0xE4, 0xB7, 0x91, 0xE4, 0xB7, 0x96, 0xE4, 0xB7, 0x9E, 0xE4, 0xB7, 0x80,
        0xE2, 0x98, 0xB0, 0xE2, 0x98, 0xB0], 24, 0) := by decide
/-- E-24. -/
theorem test_encode_bad_length : outputAfter .encode { State.reset with ilen := 3073 } = some ([], 0, 8) := by decide

/-- X-12: padding entries other than index 0 are accepted. -/
theorem test_decode :
    outputAfter .decode (withInput [0xE4, 0xB7, 0xBF, 0xE4, 0xB7, 0xB0, 0xE2, 0x98, 0xB3, 0xE2, 0x98, 0xB7]) =
      some ([0xFF], 1, 0) := by decide
/-- X-30, X-2, X-1: which check fails first. -/
theorem test_decode_errors :
    outputAfter .decode (withInput [0x00, 0x00, 0x41, 0xE2, 0x98, 0xB0, 0xE2, 0x98, 0xB0, 0xE2, 0x98, 0xB0]) =
      some ([], 0, 3) ∧
    outputAfter .decode { State.reset with ilen := 2 } = some ([], 0, 2) ∧
    outputAfter .decode State.reset = some ([], 0, 1) := by decide

/-- W-15 through the step: STATUS reads 7/0. -/
theorem test_illegal_step :
    (nextOf (step (State.reset.withFetchWord 32 0x0A000000))).map (fun t => (t.err, t.cnt, t.olen)) = some (7, 0, 0) := by
  decide

/-- H-3: bits 31:24 of a write of BREG are not stored. -/
theorem test_breg_write :
    (nextOf (step (withEvents [.write 0x08 32 0xAB123456]))).map (fun t => bregWord t.bytes) = some 0x00123456 := by
  decide

/-- R202, R199: right after reset PACK1 runs and leaves no defined sextet; with `B0` written it does (R125). -/
theorem test_pack1_unwritten :
    (nextOf (exec .pack1 State.reset)).map (fun t => (t.err, t.sextetsWritten 2)) = some (0, false) ∧
    (nextOf (exec .pack1 { State.reset with bytes := ⟨⟨0xFF, true⟩, ⟨0, false⟩, ⟨0, false⟩⟩ })).map State.sextetValues =
      some ⟨63, 48, 0, 0⟩ := by decide

/-- H-2: after reset BREG holds no defined value; the word is answered and marked so (log 12). -/
theorem test_breg_unwritten :
    (nextOf (step (withEvents [.read 0x08 32]))).map State.returned = some [.unspecified (bregWord State.reset.bytes)] := rfl

/-- R199: IDXOF over an undefined `Y3` that is in neither table reports an error, and leaves neither STATUS nor `S3`, which
keeps its value, defined (log 13). -/
theorem test_idxof_undefined_source :
    let s := { lanes ⟨0, 0, 0⟩ ⟨0, 0, 0, 5⟩ ⟨0, 0, 0, 0⟩ with symbols := ⟨⟨0, true⟩, ⟨0, true⟩, ⟨0, true⟩, ⟨0x41, false⟩⟩ }
    (nextOf (exec (.idxof .data .l3) s)).map (fun t => (t.err, t.statusWritten, t.sextets.l3)) =
      some (4, false, ⟨5, false⟩) := by decide

/-- R199: STATUS left by such a command reads marked. -/
theorem test_status_undefined :
    (nextOf (step { full with statusWritten := false, err := 4, pending := [.read 0x04 32] })).map State.returned =
      some [.unspecified 4] := by decide

/-- H-2: after reset no unit of IBUF has a value. -/
theorem test_unit_unwritten : step (withEvents [.read 0x1000 8]) = .refused (.neverWrittenUnit 0x1000) := rfl

/-- H-10, H-11: nothing is mapped at 0x28, nor past the last unit of IBUF. -/
theorem test_unmapped :
    step (withEvents [.read 0x28 32]) = .fault (.unmappedAddress 0x28) ∧
    step (withEvents [.write (0x1000 + 3072) 8 0]) = .fault (.unmappedAddress (0x1000 + 3072)) := ⟨rfl, rfl⟩

/-- Programs P1 line 1, P5 lines 7 and 8, P3 line 1: the host accesses a line stands for. -/
theorem test_program_lines :
    programEvents Config.default [.ldb 0x4D 0x61 0x6E] = [.write 0x08 32 0x004D616E] ∧
    programEvents Config.default [.lds 8 0 0 0, .basic (.command (.symat .padding .l0))] =
      [.write 0x0C 32 0x00200000, .write 0x00 32 0x08000004] ∧
    programEvents Config.default [.ldi [0x01, 0x02]] = [.write 0x1000 8 0x01, .write 0x1001 8 0x02, .write 0x20 32 2] := by
  decide

/-- Program P3 line 5: `LDSYM` of four symbols is the twelve units and the length. -/
theorem test_program_ldsym :
    HostLine.expand (.ldsym [0xE4B780, 0xE4B790, 0xE4B788, 0xE298B0]) =
      HostLine.expand (.ldi [0xE4, 0xB7, 0x80, 0xE4, 0xB7, 0x90, 0xE4, 0xB7, 0x88, 0xE2, 0x98, 0xB0]) := by decide

/-- The buffers of the state after reset are in canonical form. -/
theorem test_reset_buffers_wf : State.reset.ibuf.wf ∧ State.reset.obuf.wf := by decide

/-! ## Witnesses: the hypotheses of each statement can be met -/

/-- A small configuration, whose buffers just hold one triplet and one group. -/
def tiny : Config :=
  { alphaD := RawConfig.default.alphaD
    alphaP := RawConfig.default.alphaP
    ibufCap := 3
    obufCap := 12
    ibufBase := 0x1000
    obufBase := 0x1003
    admitted := ⟨RawConfig.default_admitted.1, RawConfig.default_admitted.2.1, RawConfig.default_admitted.2.2.1,
      by decide⟩ }

theorem test_wit_DecodeExactlyInvertsEncode :
    (∃ w i, decode w = .ok i) ∧ (Instr.wellFormed (.gfmt 3) = true ∧ encode (.gfmt 3) = 0x0A000003) :=
  ⟨⟨0x11000000, .decode, by decide⟩, by decide⟩

theorem test_wit_MatchAndMaskSelectCommand :
    decode 0x08000007 = .ok (.symat .padding .l3) ∧ decode 0x09000000 = .ok (.idxof .data .l0) ∧
    decode 0x0A000003 = .ok (.gfmt 3) ∧ decode 0x0B000001 = .ok (.gval true) := by decide

/-- One word for each way of being illegal, as the next command. -/
theorem test_wit_IllegalWordsReportedOnly :
    ∀ w ∈ ([0x07000000, 0x01800000, 0x04000080, 0x08000008, 0x0A000004, 0x0B000002, 0x0A000000] : List Word),
      (withEvents [commandEvent w]).pending = .write 0x00 32 w :: [] ∧ IllegalWord w := by
  intro w hw
  refine ⟨rfl, ?_⟩
  simp only [List.mem_cons, List.not_mem_nil, or_false] at hw
  rcases hw with rfl | rfl | rfl | rfl | rfl | rfl | rfl
  · exact .inl (by decide)
  · exact .inr (.inl (by decide))
  · exact .inr (.inr (.inl (by decide)))
  · exact .inr (.inr (.inr (.inl (by decide))))
  · exact .inr (.inr (.inr (.inr (.inl (by decide)))))
  · exact .inr (.inr (.inr (.inr (.inr (.inl (by decide))))))
  · exact .inr (.inr (.inr (.inr (.inr (.inr (by decide))))))

theorem test_wit_StepRunsDecodedCommand :
    (State.reset.withFetchWord 32 0x0A000001).pending = .write 0x00 32 0x0A000001 :: [] ∧
    decode 0x0A000001 = .ok (.gfmt 1) := ⟨rfl, by decide⟩

theorem test_wit_IdleBlockHoldsState : State.reset.pending = [] := rfl

/-- The hypotheses of Pack3CutsTriplet, Pack2ZeroExtends, Pack1ZeroExtends, Unpk4CutsQuadruplet, Unpk3DropsLowBits,
Unpk2DropsLowBits, GfmtFormatsGroup, SymatLooksUpEntry and IdxofFindsIndex that sources are written. -/
theorem test_wit_sources_written :
    ∀ i ∈ ([.pack3, .pack2, .pack1, .unpk4, .unpk3, .unpk2, .gfmt 3, .gfmt 2, .gfmt 1, .symat .data .l0, .symat .data .l3,
      .idxof .data .l0, .idxof .padding .l3, .gval true] : List Instr), sourcesWritten i full = true := by decide

/-- PartialCommandsIgnoreLanes: only the meaningful lanes are written. -/
theorem test_wit_PartialCommandsIgnoreLanes :
    let s := { full with bytes := ⟨⟨0xFF, true⟩, ⟨0, false⟩, ⟨0, false⟩⟩, sextets := ⟨⟨63, true⟩, ⟨48, true⟩, ⟨0, false⟩, ⟨0, false⟩⟩ }
    let t := { full with bytes := ⟨⟨0xFF, true⟩, ⟨0xFF, true⟩, ⟨0, false⟩⟩, sextets := ⟨⟨63, true⟩, ⟨63, true⟩, ⟨60, true⟩, ⟨0, false⟩⟩ }
    sourcesWritten .pack1 s = true ∧ sourcesWritten .unpk2 s = true ∧
    sourcesWritten .pack2 t = true ∧ sourcesWritten .unpk3 t = true := by decide

/-- Both sides of the bound of the padding alphabet. -/
theorem test_wit_SymatLooksUpEntry :
    (sourcesWritten (.symat .data .l1) (withSextets 0 7 8 0) = true ∧
      ((withSextets 0 7 8 0).sextets.get .l1).value.toNat < 8) ∧
    (sourcesWritten (.symat .data .l2) (withSextets 0 7 8 0) = true ∧
      8 ≤ ((withSextets 0 7 8 0).sextets.get .l2).value.toNat) := by decide

/-- The last entry of each table, and a code in neither. -/
theorem test_wit_IdxofFindsIndex :
    (Config.default.table .data)[(63 : Sextet).toNat]? = some ((withSymbols 0xE4B7BF 0xE298B7 0x41 0).symbols.get .l0).value ∧
    (Config.default.table .padding)[(7 : Sextet).toNat]? =
      some ((withSymbols 0xE4B7BF 0xE298B7 0x41 0).symbols.get .l1).value ∧
    ((withSymbols 0xE4B7BF 0xE298B7 0x41 0).symbols.get .l2).value ∉ Config.default.table .data := by decide

theorem test_wit_IndexOfInvertsSymbolAt :
    Config.default.symbolAt .padding 7 = some 0xE298B7 ∧ Config.default.symbolAt .data 63 = some 0xE4B7BF ∧
    Config.default.indexOf .data 0xE4B7BF = some 63 ∧ Config.default.indexOf .data 0x41 = none := by decide

theorem test_wit_EncodedStringShape : [(0xFF : Byte)].length % 3 = 1 ∧ [(0x01 : Byte), 0x02].length % 3 = 2 := by decide

/-- Group 0 of one input and group 1 of a longer one. -/
theorem test_wit_OutputGroupsIndependent :
    ∀ k, k < 3 → ([0x12, 0x34] : List Byte)[3 * 0 + k]? = ([0, 0, 0, 0x12, 0x34] : List Byte)[3 * 1 + k]? := by decide

/-- An input that fills IBUF to the last unit, the empty input, and a length just above the capacity. -/
theorem test_wit_EncodeWritesTextOfInput :
    (let s := { withInput [0x4D, 0x61, 0x6E] with config := tiny }
     [(0x4D : Byte), 0x61, 0x6E].length = s.ilen.toNat ∧ s.ilen.toNat ≤ s.config.ibufCap ∧
     ∀ k, k < 3 → s.ibuf.read k = [(0x4D : Byte), 0x61, 0x6E][k]?) ∧
    (([] : List Byte).length = State.reset.ilen.toNat ∧ State.reset.ilen.toNat ≤ State.reset.config.ibufCap ∧
     ∀ k, k < 0 → State.reset.ibuf.read k = ([] : List Byte)[k]?) ∧
    (let s : State := { State.reset with ilen := 3073 }; s.config.ibufCap < s.ilen.toNat) :=
  ⟨by decide, ⟨rfl, by decide, fun k h => absurd h (Nat.not_lt_zero k)⟩, by decide⟩

/-- The text of `D(0) P(0) P(0) P(0)` (L1-5). -/
def threePads : List Byte := [0xE4, 0xB7, 0x80, 0xE2, 0x98, 0xB0, 0xE2, 0x98, 0xB0, 0xE2, 0x98, 0xB0]

/-- The text of `D(63) D(48) P(3) P(7)` (X-12). -/
def twoPads : List Byte := [0xE4, 0xB7, 0xBF, 0xE4, 0xB7, 0xB0, 0xE2, 0x98, 0xB3, 0xE2, 0x98, 0xB7]

/-- The text of `D(0) D(0) P(0) D(0)` (X-26). -/
def innerPad : List Byte := [0xE4, 0xB7, 0x80, 0xE4, 0xB7, 0x80, 0xE2, 0x98, 0xB0, 0xE4, 0xB7, 0x80]

/-- No unit; thirteen and six units; a run of three padding symbols; a string that passes; one whose lookup fails. -/
theorem test_wit_DecodeChecksInOrder :
    ([] : List Byte).length = 0 ∧ ((0x00 :: threePads).length % 3 ≠ 0) ∧
    ((threePads.take 6).length % 3 = 0 ∧ ((threePads.take 6).length / 3) % 4 ≠ 0) ∧
    (threePads.length % 12 = 0 ∧ EndsInThreePads Config.default (symbolsOf threePads)) ∧
    (¬ EndsInThreePads Config.default (symbolsOf twoPads) ∧
      ∀ y ∈ (symbolsOf twoPads).take (12 / 3 - paddingCount Config.default (symbolsOf twoPads)),
        Config.default.isData y = true) ∧
    (¬ EndsInThreePads Config.default (symbolsOf innerPad) ∧
      ∃ y ∈ (symbolsOf innerPad).take (12 / 3 - paddingCount Config.default (symbolsOf innerPad)),
        Config.default.isData y = false) :=
  ⟨rfl, by decide, by decide,
    ⟨rfl, List.all_eq_true.1 (by decide : (symbolsOf threePads).drop 1 |>.all Config.default.isPad)⟩,
    ⟨fun h => absurd (h 0xE4B7B0 (by decide)) (by decide),
      List.all_eq_true.1 (by decide : ((symbolsOf twoPads).take 2).all Config.default.isData)⟩,
    ⟨fun h => absurd (h 0xE4B780 (by decide)) (by decide), 0xE298B0, by decide, by decide⟩⟩

theorem test_wit_DecodeRebuildsBytes :
    Config.default.isPad 0xE298B3 = true ∧ Config.default.isPad 0xE298B7 = true ∧
    [(⟨1, 2, 3, 4⟩ : Quad Sextet)] ≠ [] := by decide

theorem test_wit_DecodeInvertsEncode : [(0xFF : Byte)] ≠ [] ∧ ([] : List Byte) = [] := by decide

/-- The round trip of program P3: `01 02` encoded and the twelve units copied back. -/
theorem test_wit_EncodeCopyDecodeRestoresInput :
    ∃ (s t u : State) (x : List Byte), x ≠ [] ∧ x.length = s.ilen.toNat ∧
      (∀ k, k < x.length → s.ibuf.read k = x[k]?) ∧ 12 * ((x.length + 2) / 3) ≤ s.config.ibufCap ∧
      exec .encode s = .next t ∧ u.config = s.config ∧ u.ilen = t.olen ∧
      ∀ k, k < t.olen.toNat → u.ibuf.read k = t.obuf.read k :=
  ⟨withInput [0x01, 0x02], (withInput [0x01, 0x02]).setOutput
      [0xE4, 0xB7, 0x80, 0xE4, 0xB7, 0x90, 0xE4, 0xB7, 0x88, 0xE2, 0x98, 0xB0],
    withInput [0xE4, 0xB7, 0x80, 0xE4, 0xB7, 0x90, 0xE4, 0xB7, 0x88, 0xE2, 0x98, 0xB0], [0x01, 0x02],
    by decide, by decide, by decide, by decide, rfl, rfl, rfl, fun _ _ => rfl⟩

/-- Above the capacity; no unit; two units; an input that decodes; one that does not. -/
theorem test_wit_DecodeWritesBytesOrReports :
    (let s : State := { State.reset with ilen := 3073 }; s.config.ibufCap < s.ilen.toNat) ∧ State.reset.ilen = 0 ∧
    (let s : State := { State.reset with ilen := 2 }
     s.ilen.toNat ≤ s.config.ibufCap ∧ s.ilen ≠ 0 ∧ s.ilen.toNat % 12 ≠ 0) ∧
    (twoPads.length = (withInput twoPads).ilen.toNat ∧ (∀ k, k < 12 → (withInput twoPads).ibuf.read k = twoPads[k]?) ∧
      decodeText Config.default twoPads = .ok [0xFF]) ∧
    (threePads.length = (withInput threePads).ilen.toNat ∧
      (∀ k, k < 12 → (withInput threePads).ibuf.read k = threePads[k]?) ∧
      decodeText Config.default threePads = .error .excessPadding) := by decide

/-- `D(19) D(22) D(5) D(46)`, `D(0) D(16) D(11) P(5)` (V-6) and `D(63) D(63) P(7) P(7)` (V-5). -/
theorem test_wit_GvalParsesGroup :
    let D := Config.default.dataSymbol
    (sourcesWritten (.gval true) full = true ∧ full.symbolValues = ⟨D 19, D 22, D 5, D 46⟩) ∧
    ((withSymbols 0xE4B780 0xE4B790 0xE4B78B 0xE298B5).symbolValues = ⟨D 0, D 16, D 11, 0xE298B5⟩ ∧
      Config.default.isPad 0xE298B5 = true) ∧
    ((withSymbols 0xE4B7BF 0xE4B7BF 0xE298B7 0xE298B7).symbolValues = ⟨D 63, D 63, 0xE298B7, 0xE298B7⟩ ∧
      Config.default.isPad 0xE298B7 = true) := by decide

/-- V-17, all of lanes 1 to 3 padding. -/
theorem test_wit_GvalReportsBadGroups_excess :
    let s := withSymbols 0x41 0xE298B0 0xE298B0 0xE298B7
    sourcesWritten (.gval true) s = true ∧ s.config.isPad s.symbolValues.l1 = true ∧
    s.config.isPad s.symbolValues.l2 = true ∧ s.config.isPad s.symbolValues.l3 = true := by decide

/-- V-16, V-14, a padding symbol in lane 2 before a data symbol, and a code in neither table in lane 3. -/
theorem test_wit_GvalReportsBadGroups_missing :
    let c := Config.default
    let s0 := (withSymbols 0x41 0xE4B780 0xE4B780 0xE4B780).symbolValues
    let s1 := (withSymbols 0xE4B780 0xE298B0 0xE4B788 0xE298B0).symbolValues
    let s2 := (withSymbols 0xE4B780 0xE4B780 0xE298B0 0xE4B780).symbolValues
    let s3 := (withSymbols 0xE4B780 0xE4B780 0xE4B780 0x41).symbolValues
    (c.isPad s0.l1 = false ∧ c.isData s0.l0 = false) ∧ (c.isPad s1.l2 = false ∧ c.isData s1.l1 = false) ∧
    (c.isPad s2.l3 = false ∧ c.isData s2.l2 = false) ∧ (c.isData s3.l3 = false ∧ c.isPad s3.l3 = false) := by decide

/-- V-9: an inner group with a padding symbol. -/
theorem test_wit_GvalReportsBadGroups_inner :
    let s := withSymbols 0xE4B781 0xE4B782 0xE4B783 0xE298B0
    sourcesWritten (.gval true) s = true ∧ s.config.isData s.symbolValues.l3 = false := by decide

theorem test_wit_GvalFinalEqualsDecode :
    let y := full.symbolValues
    sourcesWritten (.gval true) full = true ∧
    decodeText full.config (textOf [y.l0, y.l1, y.l2, y.l3]) = .ok [0x4D, 0x61, 0x6E] ∧
    decodeText full.config (textOf [0x41, 0xE298B0, 0xE298B0, 0xE298B0]) = .error .excessPadding := by decide

/-- An error of a command on the lanes (A-6) and of a buffer command (X-1). -/
theorem test_wit_ErrorWritesStatusOnly :
    (∃ t, exec (.symat .padding .l0) (withSextets 8 0 0 0) = .next t ∧ t.err ≠ 0) ∧
    (∃ t, exec .decode State.reset = .next t ∧ t.err ≠ 0) :=
  ⟨⟨_, rfl, by decide⟩, ⟨_, rfl, by decide⟩⟩

/-- The hypotheses of KindsEachCommandReports, NoInternalInconsistency and CommandsWriteTheirDestinations. -/
theorem test_wit_exec_next :
    (Instr.wellFormed .pack3 = true ∧ ∃ t, exec .pack3 full = .next t) ∧
    (Instr.wellFormed (.gfmt 1) = true ∧ ∃ t, exec (.gfmt 1) full = .next t) ∧
    (Instr.wellFormed .encode = true ∧ ∃ t, exec .encode State.reset = .next t) ∧
    (Instr.wellFormed .decode = true ∧ ∃ t, exec .decode State.reset = .next t) :=
  ⟨⟨rfl, _, rfl⟩, ⟨rfl, _, rfl⟩, ⟨rfl, _, rfl⟩, ⟨rfl, _, rfl⟩⟩

/-- Two different states that agree on what PACK1 reads, and on what ENCODE of one unit reads. -/
theorem test_wit_ResultsDependOnNamedInputs :
    (sourcesWritten .pack1 (withBytes 0x4D 0 0) = sourcesWritten .pack1 (withBytes 0x4D 1 2) ∧
      SameInputs .pack1 (withBytes 0x4D 0 0) (withBytes 0x4D 1 2) ∧ ∃ t, exec .pack1 (withBytes 0x4D 0 0) = .next t) ∧
    (sourcesWritten .encode (withInput [0xFF]) =
        sourcesWritten .encode { withInput [0xFF] with ibuf := Memory.ofUnits 0 [0xFF, 0x01] } ∧
      SameInputs .encode (withInput [0xFF]) { withInput [0xFF] with ibuf := Memory.ofUnits 0 [0xFF, 0x01] } ∧
      ∃ t, exec .encode (withInput [0xFF]) = .next t) :=
  ⟨⟨rfl, ⟨rfl, rfl⟩, _, rfl⟩, ⟨by decide, ⟨rfl, rfl, by decide⟩, _, rfl⟩⟩

/-- Both sides of CommandsRunWhereInputWritten: a command on lanes none of which was written, a DECODE that its length
decides, and a unit of the input missing. -/
theorem test_wit_CommandsRunWhereInputWritten :
    inputWritten (.gfmt 2) State.reset = true ∧ inputWritten .decode { State.reset with ilen := 2 } = true ∧
    inputWritten .encode { State.reset with ilen := 1 } = false := by decide

theorem test_wit_LaneCommandsIgnoreMarks : (Instr.gval true ≠ .encode) ∧ (Instr.gval true ≠ .decode) := by decide

/-- UndefinedLanesStayMarked: one lane missing of those GFMT 2 names, none missing, the term that reads nothing, and a unit
of the input missing. -/
theorem test_wit_UndefinedLanesStayMarked_sources :
    sourcesWritten (.gfmt 2) { full with bytes := ⟨⟨1, true⟩, ⟨2, false⟩, ⟨3, true⟩⟩ } = false ∧
    sourcesWritten (.gfmt 2) { full with bytes := ⟨⟨1, true⟩, ⟨2, true⟩, ⟨3, false⟩⟩ } = true ∧
    sourcesWritten (.gfmt 0) State.reset = true ∧ sourcesWritten .encode { State.reset with ilen := 1 } = false := by decide

/-- The hypotheses of StepKeepsInvariant and RomIsNeverWritten. -/
theorem test_wit_StepKeepsInvariant :
    (State.reset.withFetchWord 32 0x10000000).Inv ∧ ∃ t, step (State.reset.withFetchWord 32 0x10000000) = .next t :=
  ⟨⟨.nil, .nil, fun _ h => absurd h List.not_mem_nil, fun k => ⟨fun h => absurd h Bool.false_ne_true,
    fun h => absurd h (Nat.not_lt_zero k)⟩, Nat.zero_le _, rfl, fun _ => rfl⟩, _, rfl⟩

/-- Both sides: a command on lanes nothing has written, a read of one of them, an ENCODE over a missing unit, a read of the
last unit of IBUF, never written, and a register offset with the wrong width. -/
theorem test_wit_StepAnswersNextExactlyWhereItRuns :
    stepRuns (State.reset.withFetchWord 32 0x0B000001) = true ∧ stepRuns (withEvents [.read 0x1C 32]) = true ∧
    stepRuns ({ State.reset with ilen := 1 }.withFetchWord 32 0x10000000) = false ∧
    stepRuns (withEvents [.read (0x1000 + 3071) 8]) = false ∧ stepRuns (withEvents [.write 0x24 8 0]) = false := by decide

/-- Two states that differ in undefined lane values only: the blocks after two different resets. -/
theorem resets_alike (l : List HostEvent) :
    State.Alike { State.reset with pending := l } { State.afterReset Config.default 1 with pending := l } :=
  ⟨rfl, ⟨rfl, fun h => absurd h Bool.false_ne_true⟩, ⟨rfl, fun h => absurd h Bool.false_ne_true⟩,
    ⟨rfl, fun h => absurd h Bool.false_ne_true⟩,
    fun l => by cases l <;> exact ⟨rfl, fun h => absurd h Bool.false_ne_true⟩,
    fun l => by cases l <;> exact ⟨rfl, fun h => absurd h Bool.false_ne_true⟩,
    rfl, fun _ => rfl, fun _ => rfl, rfl, rfl, rfl, rfl, rfl, .nil⟩

/-- Commands over lanes that hold different free values, one that can report no error and two that can. -/
theorem test_wit_UndefinedLanesStayMarked_alike :
    State.Alike State.reset (State.afterReset Config.default 1) ∧ (∃ s', exec .pack3 State.reset = .next s') ∧
    (∃ s', exec (.symat .padding .l0) State.reset = .next s') ∧ ∃ s', exec (.gval true) State.reset = .next s' :=
  ⟨resets_alike [], ⟨_, rfl⟩, ⟨_, rfl⟩, ⟨_, rfl⟩⟩

/-- A command whose STATUS an undefined value decides, and one the spec defines. -/
theorem test_wit_StepKeepsUndefinedValuesMarked :
    (let l := [commandEvent 0x0B000001]
     State.Alike { State.reset with pending := l } { State.afterReset Config.default 1 with pending := l } ∧
     ∃ s', step { State.reset with pending := l } = .next s') ∧
    (let l := [commandEvent 0x10000000]
     State.Alike { State.reset with pending := l } { State.afterReset Config.default 1 with pending := l } ∧
     stepSafe { State.reset with pending := l } = true) :=
  ⟨⟨resets_alike _, _, rfl⟩, resets_alike _, by decide⟩

/-- H-2 for the model R199 describes: after reset PACK1 and a read of BREG have no transition; ENCODE of no unit has one. -/
theorem test_refusing_step :
    refusingStep (State.reset.withFetchWord 32 0x03000000) = none ∧ refusingStep (withEvents [.read 0x08 32]) = none ∧
    (∃ o, refusingStep (State.reset.withFetchWord 32 0x10000000) = some o) := ⟨rfl, rfl, _, rfl⟩

/-- A command, a read of each kind, the last unit of each buffer, a step that stays and one of the wrong width; then the events
on which it is `step`: none, a reset, an illegal word, a write beside CMD, a read of CMD, and reads of the wrong width. -/
theorem test_wit_RefusingStepRefusesNeverWritten :
    (State.reset.withFetchWord 32 0x03000000).pending = .write 0x00 32 0x03000000 :: [] ∧ decode 0x03000000 = .ok .pack1 ∧
    (withEvents [.read 0x08 32]).pending = .read 0x08 32 :: [] ∧ (withEvents [.read 0x0C 32]).pending = .read 0x0C 32 :: [] ∧
    (withEvents [.read 0x1C 32]).pending = .read 0x1C 32 :: [] ∧
    (withEvents [.read (0x1000 + 3071) 8]).pending = .read (State.reset.config.ibufBase + 3071) 8 :: [] ∧
    (withEvents [.read (0x4000 + 12287) 8]).pending = .read (State.reset.config.obufBase + 12287) 8 :: [] ∧
    (State.reset.statusWritten = true ∧ refusingStep State.reset = some (.next State.reset)) ∧
    refusingStep (withEvents [.write 0x24 8 0]) = some (.refused (.wrongWidth 0x24 8)) ∧
    (withEvents [.read 0x04 32]).pending = .read 0x04 32 :: [] ∧ State.reset.pending = [] ∧
    (withEvents [.reset]).pending = .reset :: [] ∧
    ((withEvents [commandEvent 0]).pending = .write 0x00 32 0 :: [] ∧ Rejected 0) ∧
    (withEvents [.write 0x08 32 0]).pending = .write 0x08 32 0 :: [] ∧
    ((withEvents [.read 0x00 32]).pending = .read 0x00 32 :: [] ∧
      0x00 ∉ [0x04, 0x08, 0x0C, 0x10, 0x14, 0x18, 0x1C]) ∧
    (withEvents [.read 0x08 8]).pending = .read 0x08 8 :: [] ∧ ¬ State.reset.config.ibufBase ≤ 0x08 ∧
    ¬ State.reset.config.obufBase ≤ 0x08 :=
  ⟨rfl, by decide, rfl, rfl, rfl, rfl, rfl, ⟨rfl, rfl⟩, rfl, rfl, rfl, rfl, ⟨rfl, _, rfl⟩, rfl, ⟨rfl, by decide⟩, rfl,
    by decide, by decide⟩

/-- Eleven written units of twelve: unit 11 is missing. -/
theorem test_wit_NeverWrittenInputStops :
    let s : State := { withInput (threePads.take 11) with ilen := 12 }
    s.ilen.toNat ≤ s.config.ibufCap ∧ 11 < s.ilen.toNat ∧ s.ibuf.read 11 = none ∧ s.ilen.toNat % 12 = 0 := by decide

/-- A write and a read of each lane view, the last symbol lane among them. -/
theorem test_wit_LaneViewsWriteAndRead (v : Word) :
    (withEvents [.write 0x08 32 v]).pending = .write 0x08 32 v :: [] ∧
    (withEvents [.write 0x0C 32 v]).pending = .write 0x0C 32 v :: [] ∧
    (Lane.l3, 0x1C) ∈ [(Lane.l0, 0x10), (.l1, 0x14), (.l2, 0x18), (.l3, 0x1C)] ∧
    (withEvents [.write 0x1C 32 v]).pending = .write 0x1C 32 v :: [] ∧
    (let s : State := { full with pending := [.read 0x08 32] }
     sourcesWritten .pack3 s = true ∧ s.pending = .read 0x08 32 :: []) ∧
    (let s : State := { full with pending := [.read 0x0C 32] }
     sourcesWritten .unpk4 s = true ∧ s.pending = .read 0x0C 32 :: []) ∧
    (let s : State := { full with pending := [.read 0x1C 32] }
     (s.symbols.get .l3).written = true ∧ s.pending = .read 0x1C 32 :: []) :=
  ⟨rfl, rfl, by decide, rfl, ⟨rfl, rfl⟩, ⟨rfl, rfl⟩, ⟨rfl, rfl⟩⟩

/-- One lane of each file never written, and STATUS undefined. -/
theorem test_wit_UndefinedReadsMarked :
    (let s : State := { full with bytes := ⟨⟨1, true⟩, ⟨2, true⟩, ⟨3, false⟩⟩, pending := [.read 0x08 32] }
     sourcesWritten .pack3 s = false ∧ s.pending = .read 0x08 32 :: []) ∧
    (let s : State := { full with sextets := ⟨⟨0, false⟩, ⟨1, true⟩, ⟨2, true⟩, ⟨3, true⟩⟩, pending := [.read 0x0C 32] }
     sourcesWritten .unpk4 s = false ∧ s.pending = .read 0x0C 32 :: []) ∧
    (let s := withEvents [.read 0x1C 32]
     (s.symbols.get .l3).written = false ∧ s.pending = .read 0x1C 32 :: []) ∧
    (let s : State := { full with statusWritten := false, pending := [.read 0x04 32] }
     s.statusWritten = false ∧ s.pending = .read 0x04 32 :: []) :=
  ⟨⟨rfl, rfl⟩, ⟨rfl, rfl⟩, ⟨rfl, rfl⟩, ⟨rfl, rfl⟩⟩

/-- The hypotheses of ControlRegisterReads, and of HostAccessSideEffects on the registers. -/
theorem test_wit_control_accesses :
    (withEvents [.read 0x04 32]).statusWritten = true ∧
    (withEvents [.read 0x04 32]).pending = .read 0x04 32 :: [] ∧ (withEvents [.read 0x20 32]).pending = .read 0x20 32 :: [] ∧
    (withEvents [.read 0x24 32]).pending = .read 0x24 32 :: [] ∧ (withEvents [.read 0x00 32]).pending = .read 0x00 32 :: [] ∧
    (∃ t, step (withEvents [.read 0x04 32]) = .next t) ∧
    (withEvents [.write 0x24 32 5]).pending = .write 0x24 32 5 :: [] ∧
    (withEvents [.write 0x20 32 7]).pending = .write 0x20 32 7 :: [] :=
  ⟨rfl, rfl, rfl, rfl, rfl, ⟨_, rfl⟩, rfl, rfl⟩

/-- The last unit of each buffer, for HostAccessSideEffects and BufferUnitReads. -/
theorem test_wit_buffer_accesses :
    (3071 < State.reset.config.ibufCap ∧ 12287 < State.reset.config.obufCap) ∧
    (withEvents [.write (0x4000 + 12287) 8 1]).pending = .write (State.reset.config.obufBase + 12287) 8 1 :: [] ∧
    (withEvents [.write (0x1000 + 3071) 8 1]).pending = .write (State.reset.config.ibufBase + 3071) 8 1 :: [] ∧
    (withEvents [.read (0x1000 + 3071) 8]).pending = .read (State.reset.config.ibufBase + 3071) 8 :: [] ∧
    (withInput [0xFF]).ibuf.read 0 = some 0xFF ∧ State.reset.ibuf.read 3071 = none ∧
    ((withInput [0xFF]).setOutput [0x01]).obuf.read 0 = some 0x01 ∧ State.reset.obuf.read 12287 = none :=
  ⟨by decide, rfl, rfl, rfl, rfl, rfl, rfl, rfl⟩

/-- An input that fills IBUF to the last unit, and the text of one symbol, which does. -/
theorem test_wit_LoadInputFillsBuffer :
    ([0xE4, 0xB7, 0x80] : List Byte).length ≤ ({ State.reset with config := tiny } : State).config.ibufCap ∧
    textOf [0xE4B780] = [0xE4, 0xB7, 0x80] := by decide

/-- Just past the registers, and just past IBUF; a register by 8 bits; a unit by 32. -/
theorem test_wit_UnmappedAccessesStop :
    let reg := fun off => off ∈ [0x00, 0x04, 0x08, 0x0C, 0x10, 0x14, 0x18, 0x1C, 0x20, 0x24]
    let unit := fun off => (State.reset.config.ibufBase ≤ off ∧ off < State.reset.config.ibufBase + State.reset.config.ibufCap) ∨
      (State.reset.config.obufBase ≤ off ∧ off < State.reset.config.obufBase + State.reset.config.obufCap)
    (¬ reg 0x28 ∧ ¬ unit 0x28) ∧ (¬ reg 0x1C00 ∧ ¬ unit 0x1C00) ∧ (reg 0x24 ∧ (8 : Nat) ≠ 32) ∧
    (unit 0x1BFF ∧ unit 0x4000 ∧ (32 : Nat) ≠ 8) := by decide

theorem test_wit_ResetLeavesTheTable : (withEvents [.reset]).pending = .reset :: [] := rfl

end Sys2Proof.Tests
end

/-! ## Invariant

Each operation of a step keeps the invariant of the block and the ROM, hence every step does (O46, O47), and the state
after reset meets the invariant (O42). -/

namespace Sys2Proof.Machine

variable {s t : State}

/-! ### The invariant, operation by operation -/

/-- Every kind but `InternalInconsistency` has a code the hardware produces (R31, R180). -/
theorem ErrorKind.legalErr_code {k : ErrorKind} (hk : k ≠ .internalInconsistency) : legalErr k.code = true := by
  revert hk
  cases k <;> decide

/-- The invariant does not speak of the lanes, and of STATUS it asks a legal `ERR` and `CNT` 0 beside an error. -/
theorem State.Inv.setLanesAndStatus (hi : s.Inv) (b : Triple (LaneReg 8)) (x : Quad (LaneReg 6)) (y : Quad (LaneReg 24))
    (w : Bool) {e : BitVec 4} {n : BitVec 2} (he : legalErr e = true) (hn : e ≠ 0 → n = 0) :
    State.Inv { s with bytes := b, sextets := x, symbols := y, err := e, cnt := n, statusWritten := w } :=
  { hi with errLegal := he, cntZero := hn }

theorem State.Inv.complete (hi : s.Inv) (w : Bool) (n : BitVec 2) : (s.complete w n).Inv :=
  hi.setLanesAndStatus _ _ _ w (by decide) (absurd rfl)

theorem State.Inv.raise (hi : s.Inv) (w : Bool) {k : ErrorKind} (hk : k ≠ .internalInconsistency) : (s.raise w k).Inv :=
  hi.setLanesAndStatus _ _ _ w (ErrorKind.legalErr_code hk) fun _ => rfl

/-- An output that fits OBUF: the capacity is below 2^32 (R8), so OLEN holds its length. -/
theorem State.Inv.setOutput (hi : s.Inv) {out : List Byte} (h : out.length ≤ s.config.obufCap) :
    (s.setOutput out).Inv := by
  obtain ⟨-, -, -, -, -, hcap, -⟩ := s.config.admitted
  have holen : (s.setOutput out).olen.toNat = out.length := by
    rw [State.setOutput_olen, BitVec.toNat_ofNat, Nat.mod_eq_of_lt (by omega)]
  exact { hi with
    obufWf := Memory.ofUnits_wf 0 out
    obufExact := fun k => by rw [holen]; simp
    olenBound := by rw [holen]; exact h }

theorem State.Inv.raiseBuffer (hi : s.Inv) {k : ErrorKind} (hk : k ≠ .internalInconsistency) : (s.raiseBuffer k).Inv :=
  (hi.setOutput (out := []) (Nat.zero_le _)).raise true hk

theorem State.Inv.setPending (hi : s.Inv) (l : List HostEvent) : State.Inv { s with pending := l } := { hi with }

theorem State.Inv.return (hi : s.Inv) (v : PortValue) : (s.return v).Inv := { hi with }

/-- After any reset the buffers are empty and STATUS is 0 (R41). -/
theorem State.afterReset_inv (c : Config) (n : Nat) : (State.afterReset c n).Inv where
  ibufWf := .nil
  obufWf := .nil
  ibufBound := by simp [State.afterReset]
  obufExact := by simp [State.afterReset]
  olenBound := Nat.zero_le _
  errLegal := show legalErr 0 = true by decide
  cntZero := absurd rfl

theorem State.applyReset_inv (s : State) : s.applyReset.Inv := { State.afterReset_inv s.config (s.resets + 1) with }

theorem State.Inv.regWrite (hi : s.Inv) (r : PortReg) (v : Word) : (regWrite r v s).Inv := by
  cases r with
  | cmd | status | olen => exact hi
  | breg | sreg | symbol l | ilen => exact { hi with }

/-- A host write of a mapped unit of IBUF lists an index below its capacity (R36, R57). -/
theorem State.Inv.portWrite (hi : s.Inv) {offset : Nat} {g : PortTarget} (hg : portTarget s.config offset = some g)
    (v : Word) : (portWrite g v s).Inv := by
  cases g with
  | reg r => exact hi.regWrite r v
  | output i => exact hi
  | input i =>
    refine { hi with ibufWf := Memory.write_wf _ _ hi.ibufWf, ibufBound := fun p hp => ?_ }
    rcases Memory.mem_write hp with rfl | hp
    · exact (portTarget_input hg).1
    · exact hi.ibufBound p hp

/-- Every command that answers a next state keeps the invariant. -/
theorem State.Inv.exec {i : Instr} (hi : s.Inv) (h : exec i s = .next t) : t.Inv := by
  rcases exec_next_cases h with ⟨b, x, y, n, w, rfl⟩ | ⟨k, b, x, y, w, hk, rfl, -⟩ | ⟨-, k, hk, rfl⟩ | ⟨-, out, hout, rfl⟩
  · exact hi.setLanesAndStatus b x y w (by decide) (absurd rfl)
  · exact hi.setLanesAndStatus b x y w (ErrorKind.legalErr_code hk) fun _ => rfl
  · exact hi.raiseBuffer hk
  · exact (hi.setOutput hout).complete true 0

/-! ### The ROM, operation by operation -/

@[simp] theorem State.applyReset_config (s : State) : s.applyReset.config = s.config := rfl

@[simp] theorem portWrite_config (g : PortTarget) (v : Word) (s : State) : (portWrite g v s).config = s.config := by
  cases g with
  | reg r => cases r <;> rfl
  | input i | output i => rfl

/-- No command writes the ROM, ILEN, IBUF or the host's record (R21, R22, R33, R36). -/
theorem exec_keeps_inputs {i : Instr} (h : exec i s = .next t) :
    t.config = s.config ∧ t.ilen = s.ilen ∧ t.ibuf = s.ibuf ∧ t.pending = s.pending ∧ t.returned = s.returned ∧
      t.resets = s.resets := by
  rcases exec_next_cases h with ⟨_, _, _, _, _, rfl⟩ | ⟨_, _, _, _, _, -, rfl, -⟩ | ⟨-, _, -, rfl⟩ | ⟨-, _, -, rfl⟩ <;>
    exact ⟨rfl, rfl, rfl, rfl, rfl, rfl⟩

/-! ### The obligations -/

/-- Settles O46, by the cases of a step, each of which is an operation that keeps the invariant. -/
theorem stepKeepsInvariant : Obligations.StepKeepsInvariant := by
  intro s t hi h
  rcases step_next_cases h with ⟨-, rfl⟩ | ⟨e, rest, -, hcase⟩
  · exact hi
  have hi' := hi.setPending rest
  rcases hcase with ⟨-, rfl⟩ | ⟨_, _, v, -, rfl⟩ | ⟨_, _, v, g, -, hg, -, -, rfl⟩ | ⟨_, _, i, -, -, -, hexec⟩ |
    ⟨_, _, _, -, -, -, rfl⟩
  · exact State.applyReset_inv _
  · exact hi'.return v
  · exact hi'.portWrite hg v
  · exact hi'.exec hexec
  · exact hi'.raise true (by decide)

/-- Settles O47, by the cases of a step, each of which keeps the configuration. -/
theorem romIsNeverWritten : Obligations.RomIsNeverWritten := by
  intro s t h
  rcases step_next_cases h with ⟨-, rfl⟩ | ⟨e, rest, -, hcase⟩
  · rfl
  rcases hcase with ⟨-, rfl⟩ | ⟨_, _, v, -, rfl⟩ | ⟨_, _, v, g, -, -, -, -, rfl⟩ | ⟨_, _, i, -, -, -, hexec⟩ |
    ⟨_, _, _, -, -, -, rfl⟩
  · rfl
  · rfl
  · exact portWrite_config g v _
  · exact (exec_keeps_inputs hexec).1
  · rfl

/-- Settles O42: `State.afterReset_inv`. -/
theorem resetMeetsInvariant : Obligations.ResetMeetsInvariant := State.afterReset_inv

end Sys2Proof.Machine

/-! ## Commands

One equation per command and outcome, with the mark of the result said as `sourcesWritten`; from them what each command
leaves alone (O40) and that its result depends on the named inputs only (O41). -/

namespace Sys2Proof.Machine

variable {s t : State}

/-! ### One equation per command and outcome -/

theorem exec_pack3 (s : State) : exec .pack3 s = .next ((s.setSextets (sourcesWritten .pack3 s)
    (pack3 s.bytes.l0.value s.bytes.l1.value s.bytes.l2.value)).complete (sourcesWritten .pack3 s) 0) := by
  rw [sourcesWritten_pack3]; rfl

theorem exec_pack2 (s : State) : exec .pack2 s = .next ((s.setSextets (sourcesWritten .pack2 s)
    ⟨(pack2 s.bytes.l0.value s.bytes.l1.value).1, (pack2 s.bytes.l0.value s.bytes.l1.value).2.1,
      (pack2 s.bytes.l0.value s.bytes.l1.value).2.2, 0⟩).complete (sourcesWritten .pack2 s) 0) := by
  rw [sourcesWritten_pack2]; rfl

theorem exec_pack1 (s : State) : exec .pack1 s = .next ((s.setSextets (sourcesWritten .pack1 s)
    ⟨(pack1 s.bytes.l0.value).1, (pack1 s.bytes.l0.value).2, 0, 0⟩).complete (sourcesWritten .pack1 s) 0) := by
  rw [sourcesWritten_pack1]; rfl

theorem exec_unpk4 (s : State) : exec .unpk4 s = .next ((s.setBytes (sourcesWritten .unpk4 s)
    (unpack4 s.sextets.l0.value s.sextets.l1.value s.sextets.l2.value s.sextets.l3.value)).complete
      (sourcesWritten .unpk4 s) 0) := by
  rw [sourcesWritten_unpk4]; rfl

theorem exec_unpk3 (s : State) : exec .unpk3 s = .next ((s.setBytes (sourcesWritten .unpk3 s)
    ⟨(unpack3 s.sextets.l0.value s.sextets.l1.value s.sextets.l2.value).1,
      (unpack3 s.sextets.l0.value s.sextets.l1.value s.sextets.l2.value).2, 0⟩).complete
      (sourcesWritten .unpk3 s) 0) := by
  rw [sourcesWritten_unpk3]; rfl

theorem exec_unpk2 (s : State) : exec .unpk2 s = .next ((s.setBytes (sourcesWritten .unpk2 s)
    ⟨unpack2 s.sextets.l0.value s.sextets.l1.value, 0, 0⟩).complete (sourcesWritten .unpk2 s) 0) := by
  rw [sourcesWritten_unpk2]; rfl

section Lookups

variable {a : Alphabet} {l : Lane}

theorem exec_symat_of_some {y : Symbol} (hy : s.config.symbolAt a (s.sextets.get l).value = some y) :
    exec (.symat a l) s = .next ((s.setSymbol l (sourcesWritten (.symat a l) s) y).complete
      (sourcesWritten (.symat a l) s) 0) := by
  simp [exec, execSymat, State.sextetValues_get, hy, sourcesWritten]

theorem exec_symat_of_none (hy : s.config.symbolAt a (s.sextets.get l).value = none) :
    exec (.symat a l) s = .next ((s.keepSymbol l (sourcesWritten (.symat a l) s)).raise
      (sourcesWritten (.symat a l) s) .indexRange) := by
  simp [exec, execSymat, State.sextetValues_get, hy, sourcesWritten]

theorem exec_idxof_of_some {i : Sextet} (hi : s.config.indexOf a (s.symbols.get l).value = some i) :
    exec (.idxof a l) s = .next ((s.setSextet l (sourcesWritten (.idxof a l) s) i).complete
      (sourcesWritten (.idxof a l) s) 0) := by
  simp [exec, execIdxof, State.symbolValues_get, hi, sourcesWritten]

theorem exec_idxof_of_none (hi : s.config.indexOf a (s.symbols.get l).value = none) :
    exec (.idxof a l) s = .next ((s.keepSextet l (sourcesWritten (.idxof a l) s)).raise
      (sourcesWritten (.idxof a l) s) .symbolNotFound) := by
  simp [exec, execIdxof, State.symbolValues_get, hi, sourcesWritten]

end Lookups

/-- The sextets GFMT `n` writes, from the byte lanes as it takes them: those above index `n` are 0 (R139). -/
def gfmtSextets (n : BitVec 2) (b : Triple Byte) : Quad Sextet :=
  let t := pack3 b.l0 b.l1 b.l2
  ⟨if 0 ≤ n.toNat then t.l0 else 0, if 1 ≤ n.toNat then t.l1 else 0, if 2 ≤ n.toNat then t.l2 else 0,
    if 3 ≤ n.toNat then t.l3 else 0⟩

/-- The symbols GFMT `n` writes: those above index `n` are the canonical padding symbol (R139). -/
def gfmtSymbols (c : Config) (n : BitVec 2) (b : Triple Byte) : Quad Symbol :=
  let t := pack3 b.l0 b.l1 b.l2
  ⟨if 0 ≤ n.toNat then c.dataSymbol t.l0 else c.padSymbol, if 1 ≤ n.toNat then c.dataSymbol t.l1 else c.padSymbol,
    if 2 ≤ n.toNat then c.dataSymbol t.l2 else c.padSymbol, if 3 ≤ n.toNat then c.dataSymbol t.l3 else c.padSymbol⟩

theorem exec_gfmt {n : BitVec 2} (hn : n ≠ 0) (s : State) :
    exec (.gfmt n) s = .next (((s.setSextets (sourcesWritten (.gfmt n) s)
      (gfmtSextets n (firstBytes n s.byteValues))).setSymbols (sourcesWritten (.gfmt n) s)
      (gfmtSymbols s.config n (firstBytes n s.byteValues))).complete (sourcesWritten (.gfmt n) s) 0) := by
  rw [sourcesWritten_gfmt s hn]
  exact if_neg hn

theorem exec_gfmt_zero (s : State) : exec (.gfmt 0) s = .next (s.raise true .illegalCommand) := rfl

/-- The trailing padding symbols GVAL counts: in a final group only (R159). -/
def gvalPadding (f : Bool) (c : Config) (y : Quad Symbol) : Nat := if f then trailingPadding c y else 0

section Gval

variable {f : Bool}

theorem exec_gval_of_excess (hp : 2 < gvalPadding f s.config s.symbolValues) :
    exec (.gval f) s = .next ((s.keepGroup (sourcesWritten (.gval f) s)).raise (sourcesWritten (.gval f) s)
      .excessPadding) :=
  congrArg Host.Outcome.next (if_pos hp)

theorem exec_gval_of_some {q : Quad Sextet} (hp : gvalPadding f s.config s.symbolValues ≤ 2)
    (hq : groupSextets s.config (4 - gvalPadding f s.config s.symbolValues) s.symbolValues = some q) :
    exec (.gval f) s = .next (((s.setSextets (sourcesWritten (.gval f) s) q).setBytes (sourcesWritten (.gval f) s)
      (groupBytes (4 - gvalPadding f s.config s.symbolValues) q)).complete (sourcesWritten (.gval f) s)
      (BitVec.ofNat 2 (4 - gvalPadding f s.config s.symbolValues - 1))) := by
  unfold gvalPadding at *
  simp only [exec, execGval, if_neg (Nat.not_lt.2 hp), hq, sourcesWritten_gval]

theorem exec_gval_of_none (hp : gvalPadding f s.config s.symbolValues ≤ 2)
    (hq : groupSextets s.config (4 - gvalPadding f s.config s.symbolValues) s.symbolValues = none) :
    exec (.gval f) s = .next ((s.keepGroup (sourcesWritten (.gval f) s)).raise (sourcesWritten (.gval f) s)
      .symbolNotFound) := by
  unfold gvalPadding at *
  simp only [exec, execGval, if_neg (Nat.not_lt.2 hp), hq, sourcesWritten_gval]

end Gval

theorem exec_encode_badLength (hc : s.config.ibufCap < s.ilen.toNat) :
    exec .encode s = .next (s.raiseBuffer .badLength) := if_pos hc

theorem exec_encode_of_units {x : List Byte} (hc : s.ilen.toNat ≤ s.config.ibufCap)
    (hx : s.ibuf.readUnits 0 s.ilen.toNat = some x) :
    exec .encode s = .next ((s.setOutput (textOf (encodeBytes s.config x))).complete true 0) := by
  simp only [exec, execEncode, if_neg (Nat.not_lt.2 hc), hx]

theorem exec_decode_badLength (hc : s.config.ibufCap < s.ilen.toNat) :
    exec .decode s = .next (s.raiseBuffer .badLength) := if_pos hc

theorem exec_decode_lengthError {k : ErrorKind} (hc : s.ilen.toNat ≤ s.config.ibufCap)
    (hk : lengthError s.ilen.toNat = some k) : exec .decode s = .next (s.raiseBuffer k) := by
  simp only [exec, execDecode, if_neg (Nat.not_lt.2 hc), hk]

theorem exec_decode_of_ok {us bs : List Byte} (hc : s.ilen.toNat ≤ s.config.ibufCap)
    (hl : lengthError s.ilen.toNat = none) (hu : s.ibuf.readUnits 0 s.ilen.toNat = some us)
    (hb : decodeText s.config us = .ok bs) : exec .decode s = .next ((s.setOutput bs).complete true 0) := by
  simp only [exec, execDecode, if_neg (Nat.not_lt.2 hc), hl, hu, hb]

theorem exec_decode_of_error {us : List Byte} {k : ErrorKind} (hc : s.ilen.toNat ≤ s.config.ibufCap)
    (hl : lengthError s.ilen.toNat = none) (hu : s.ibuf.readUnits 0 s.ilen.toNat = some us)
    (hk : decodeText s.config us = .error k) : exec .decode s = .next (s.raiseBuffer k) := by
  simp only [exec, execDecode, if_neg (Nat.not_lt.2 hc), hl, hu, hk]

/-! ### What each command leaves alone -/

/-- Only ENCODE and DECODE write OLEN and OBUF (R34, R37). -/
theorem exec_keeps_output {i : Instr} (h : exec i s = .next t) (hi : i ≠ .encode ∧ i ≠ .decode) :
    t.olen = s.olen ∧ t.obuf = s.obuf := by
  obtain ⟨hne, hnd⟩ := hi
  rcases exec_next_cases h with ⟨_, _, _, _, _, rfl⟩ | ⟨_, _, _, _, _, -, rfl, -⟩ | ⟨hbuf, -⟩ | ⟨hbuf, -⟩
  · exact ⟨rfl, rfl⟩
  · exact ⟨rfl, rfl⟩
  · exact absurd hbuf (not_or.2 ⟨hne, hnd⟩)
  · exact absurd hbuf (not_or.2 ⟨hne, hnd⟩)

/-- The lanes each command does not name as a destination stay (R24 to R26). -/
def LanesKept (i : Instr) (s t : State) : Prop :=
  match i with
  | .pack3 | .pack2 | .pack1 => t.bytes = s.bytes ∧ t.symbols = s.symbols
  | .unpk4 | .unpk3 | .unpk2 => t.sextets = s.sextets ∧ t.symbols = s.symbols
  | .symat _ l => t.bytes = s.bytes ∧ t.sextets = s.sextets ∧ ∀ m, m ≠ l → t.symbols.get m = s.symbols.get m
  | .idxof _ l => t.bytes = s.bytes ∧ t.symbols = s.symbols ∧ ∀ m, m ≠ l → t.sextets.get m = s.sextets.get m
  | .gfmt _ => t.bytes = s.bytes
  | .gval _ => t.symbols = s.symbols
  | .encode | .decode => t.bytes = s.bytes ∧ t.sextets = s.sextets ∧ t.symbols = s.symbols

theorem exec_lanesKept {i : Instr} (h : exec i s = .next t) : LanesKept i s t := by
  cases i with
  | pack3 | pack2 | pack1 | unpk4 | unpk3 | unpk2 => cases h; exact ⟨rfl, rfl⟩
  | symat a l =>
    cases hy : s.config.symbolAt a (s.sextets.get l).value with
    | some y =>
      rw [exec_symat_of_some hy] at h; cases h
      exact ⟨rfl, rfl, fun m hm => Quad.get_set_other _ _ hm⟩
    | none =>
      rw [exec_symat_of_none hy] at h; cases h
      exact ⟨rfl, rfl, fun m hm => Quad.get_set_other _ _ hm⟩
  | idxof a l =>
    cases hi : s.config.indexOf a (s.symbols.get l).value with
    | some i =>
      rw [exec_idxof_of_some hi] at h; cases h
      exact ⟨rfl, rfl, fun m hm => Quad.get_set_other _ _ hm⟩
    | none =>
      rw [exec_idxof_of_none hi] at h; cases h
      exact ⟨rfl, rfl, fun m hm => Quad.get_set_other _ _ hm⟩
  | gfmt n =>
    by_cases hn : n = 0
    · subst hn; rw [exec_gfmt_zero] at h; cases h; rfl
    · rw [exec_gfmt hn] at h; cases h; rfl
  | gval f =>
    rcases Nat.lt_or_ge 2 (gvalPadding f s.config s.symbolValues) with hp | hp
    · rw [exec_gval_of_excess hp] at h; cases h; rfl
    · cases hq : groupSextets s.config (4 - gvalPadding f s.config s.symbolValues) s.symbolValues with
      | some q => rw [exec_gval_of_some hp hq] at h; cases h; rfl
      | none => rw [exec_gval_of_none hp hq] at h; cases h; rfl
  | encode => rcases execEncode_next h with ⟨-, rfl⟩ | ⟨-, _, -, rfl⟩ <;> exact ⟨rfl, rfl, rfl⟩
  | decode =>
    rcases execDecode_next h with ⟨-, rfl⟩ | ⟨-, _, -, rfl⟩ | ⟨-, -, _, -, ⟨_, -, rfl⟩ | ⟨_, -, rfl⟩⟩ <;>
      exact ⟨rfl, rfl, rfl⟩

/-- Settles O40, command by command from `LanesKept`. -/
theorem commandsWriteTheirDestinations : Obligations.CommandsWriteTheirDestinations := by
  intro i s t h
  refine ⟨exec_keeps_inputs h, exec_keeps_output h, ?_⟩
  have hk := exec_lanesKept h
  cases i with
  | pack3 | pack2 | pack1 => obtain ⟨hb, hy⟩ := hk; simp [hb, hy]
  | unpk4 | unpk3 | unpk2 => obtain ⟨hx, hy⟩ := hk; simp [hx, hy]
  | symat a l =>
    obtain ⟨hb, hx, hm⟩ := hk
    refine ⟨fun _ => hb, fun _ => hx, by simp, ?_, by simp⟩
    rintro _ _ m ⟨⟩ hne
    exact hm m hne
  | idxof a l =>
    obtain ⟨hb, hy, hm⟩ := hk
    refine ⟨fun _ => hb, by simp, fun _ => hy, by simp, ?_⟩
    rintro _ _ m ⟨⟩ hne
    exact hm m hne
  | gfmt n => have hb : t.bytes = s.bytes := hk; simp [hb]
  | gval f => have hy : t.symbols = s.symbols := hk; simp [hy]
  | encode | decode => obtain ⟨hb, hx, hy⟩ := hk; simp [hb, hx, hy]

/-! ### Results depend on the named inputs -/

theorem ErrorKind.code_ne_zero (k : ErrorKind) : k.code ≠ 0 := by cases k <;> decide

/-- `readUnits` looks at the units of its range and at nothing else. -/
theorem Memory.readUnits_congr {m m' : Memory} {i n : Nat} (h : ∀ k, k < n → m.read (i + k) = m'.read (i + k)) :
    m.readUnits i n = m'.readUnits i n := by
  ext us
  rw [Memory.readUnits_eq_some, Memory.readUnits_eq_some]
  exact and_congr_right fun _ => forall₂_congr fun k hk => by rw [h k hk]

/-- The input of ENCODE and DECODE is ILEN and the units of IBUF below it (R68). -/
theorem readInput_congr (hl : s.ilen = t.ilen) (hk : ∀ k, k < s.ilen.toNat → s.ibuf.read k = t.ibuf.read k) :
    s.ibuf.readUnits 0 s.ilen.toNat = t.ibuf.readUnits 0 t.ilen.toNat := by
  rw [← hl]
  exact Memory.readUnits_congr fun k hlt => by simpa using hk k hlt

/-- GFMT takes equal bytes from states that agree on the lanes below `n` (R139). -/
theorem firstBytes_congr {n : BitVec 2} {b b' : Triple Byte} (h0 : b.l0 = b'.l0) (h1 : 2 ≤ n.toNat → b.l1 = b'.l1)
    (h2 : n.toNat = 3 → b.l2 = b'.l2) : firstBytes n b = firstBytes n b' := by
  have e1 : (if 2 ≤ n.toNat then b.l1 else 0) = if 2 ≤ n.toNat then b'.l1 else 0 := if_ctx_congr .rfl h1 fun _ => rfl
  have e2 : (if n.toNat = 3 then b.l2 else 0) = if n.toNat = 3 then b'.l2 else 0 := if_ctx_congr .rfl h2 fun _ => rfl
  rw [firstBytes, firstBytes, h0, e1, e2]

/-- Where the command answers a next state from `s`, it does so from `t`, with the same results (R40). -/
def ResultsAgree (i : Instr) (s t : State) : Prop :=
  ∀ s', exec i s = .next s' → ∃ t', exec i t = .next t' ∧ SameResults i s' t'

theorem ResultsAgree.of_next {i : Instr} {s₁ t₁ : State} (hs : exec i s = .next s₁) (ht : exec i t = .next t₁)
    (h : SameResults i s₁ t₁) : ResultsAgree i s t := by
  intro s' hs'
  rw [hs] at hs'
  cases hs'
  exact ⟨t₁, ht, h⟩

section Agreement

variable (hc : s.config = t.config)
include hc

theorem symat_resultsAgree {a : Alphabet} {l : Lane} (hw : sourcesWritten (.symat a l) s = sourcesWritten (.symat a l) t)
    (hx : (s.sextets.get l).value = (t.sextets.get l).value) : ResultsAgree (.symat a l) s t := by
  cases hy : s.config.symbolAt a (s.sextets.get l).value with
  | some y =>
    have hy' : t.config.symbolAt a (t.sextets.get l).value = some y := by rw [← hc, ← hx, hy]
    exact .of_next (exec_symat_of_some hy) (exec_symat_of_some hy') ⟨rfl, rfl, hw, fun _ => by simp [hw]⟩
  | none =>
    have hy' : t.config.symbolAt a (t.sextets.get l).value = none := by rw [← hc, ← hx, hy]
    exact .of_next (exec_symat_of_none hy) (exec_symat_of_none hy')
      ⟨rfl, rfl, hw, fun h => absurd h (ErrorKind.code_ne_zero .indexRange)⟩

theorem idxof_resultsAgree {a : Alphabet} {l : Lane} (hw : sourcesWritten (.idxof a l) s = sourcesWritten (.idxof a l) t)
    (hy : (s.symbols.get l).value = (t.symbols.get l).value) : ResultsAgree (.idxof a l) s t := by
  cases hi : s.config.indexOf a (s.symbols.get l).value with
  | some i =>
    have hi' : t.config.indexOf a (t.symbols.get l).value = some i := by rw [← hc, ← hy, hi]
    exact .of_next (exec_idxof_of_some hi) (exec_idxof_of_some hi') ⟨rfl, rfl, hw, fun _ => by simp [hw]⟩
  | none =>
    have hi' : t.config.indexOf a (t.symbols.get l).value = none := by rw [← hc, ← hy, hi]
    exact .of_next (exec_idxof_of_none hi) (exec_idxof_of_none hi')
      ⟨rfl, rfl, hw, fun h => absurd h (ErrorKind.code_ne_zero .symbolNotFound)⟩

theorem gfmt_resultsAgree {n : BitVec 2} (hw : sourcesWritten (.gfmt n) s = sourcesWritten (.gfmt n) t)
    (hb : firstBytes n s.byteValues = firstBytes n t.byteValues) : ResultsAgree (.gfmt n) s t := by
  by_cases hn : n = 0
  · subst hn
    exact .of_next (exec_gfmt_zero s) (exec_gfmt_zero t)
      ⟨rfl, rfl, rfl, fun h => absurd h (ErrorKind.code_ne_zero .illegalCommand)⟩
  · exact .of_next (exec_gfmt hn s) (exec_gfmt hn t) ⟨rfl, rfl, hw, fun _ => by simp [hw, hb, hc]⟩

theorem gval_resultsAgree {f : Bool} (hw : sourcesWritten (.gval f) s = sourcesWritten (.gval f) t)
    (hy : s.symbolValues = t.symbolValues) : ResultsAgree (.gval f) s t := by
  have hpad : gvalPadding f t.config t.symbolValues = gvalPadding f s.config s.symbolValues := by rw [hc, hy]
  rcases Nat.lt_or_ge 2 (gvalPadding f s.config s.symbolValues) with hp | hp
  · exact .of_next (exec_gval_of_excess hp) (exec_gval_of_excess (hpad ▸ hp))
      ⟨rfl, rfl, hw, fun h => absurd h (ErrorKind.code_ne_zero .excessPadding)⟩
  · have hgroup : groupSextets t.config (4 - gvalPadding f t.config t.symbolValues) t.symbolValues =
        groupSextets s.config (4 - gvalPadding f s.config s.symbolValues) s.symbolValues := by rw [hc, hy]
    cases hq : groupSextets s.config (4 - gvalPadding f s.config s.symbolValues) s.symbolValues with
    | some q =>
      refine .of_next (exec_gval_of_some hp hq) (exec_gval_of_some (hpad ▸ hp) (hgroup.trans hq)) ?_
      exact ⟨rfl, by simp [hpad], hw, fun _ => by simp [hw, hpad]⟩
    | none =>
      exact .of_next (exec_gval_of_none hp hq) (exec_gval_of_none (hpad ▸ hp) (hgroup.trans hq))
        ⟨rfl, rfl, hw, fun h => absurd h (ErrorKind.code_ne_zero .symbolNotFound)⟩

variable (hl : s.ilen = t.ilen) (hu : s.ibuf.readUnits 0 s.ilen.toNat = t.ibuf.readUnits 0 t.ilen.toNat)
include hl hu

theorem encode_resultsAgree : ResultsAgree .encode s t := by
  intro s' h
  rcases execEncode_next h with ⟨hlen, rfl⟩ | ⟨hlen, x, hx, rfl⟩ <;> rw [hc, hl] at hlen
  · exact ⟨_, exec_encode_badLength hlen, rfl, rfl, rfl, rfl, rfl⟩
  · refine ⟨_, exec_encode_of_units hlen (hu ▸ hx), ?_⟩
    rw [hc]
    exact ⟨rfl, rfl, rfl, rfl, rfl⟩

theorem decode_resultsAgree : ResultsAgree .decode s t := by
  intro s' h
  rcases execDecode_next h with ⟨hlen, rfl⟩ | ⟨hlen, k, hk, rfl⟩ | ⟨hlen, hn, us, hus, ⟨bs, hb, rfl⟩ | ⟨k, hk, rfl⟩⟩ <;>
    rw [hc, hl] at hlen
  · exact ⟨_, exec_decode_badLength hlen, rfl, rfl, rfl, rfl, rfl⟩
  · exact ⟨_, exec_decode_lengthError hlen (hl ▸ hk), rfl, rfl, rfl, rfl, rfl⟩
  · exact ⟨_, exec_decode_of_ok hlen (hl ▸ hn) (hu ▸ hus) (hc ▸ hb), rfl, rfl, rfl, rfl, rfl⟩
  · exact ⟨_, exec_decode_of_error hlen (hl ▸ hn) (hu ▸ hus) (hc ▸ hk), rfl, rfl, rfl, rfl, rfl⟩

end Agreement

/-- Settles O41, command by command: equal inputs give equal equations. -/
theorem resultsDependOnNamedInputs : Obligations.ResultsDependOnNamedInputs := by
  intro i s t s' hw hin
  obtain ⟨hc, hin⟩ := hin
  revert s'
  show ResultsAgree i s t
  cases i with
  | pack3 =>
    obtain ⟨h0, h1, h2⟩ := Triple.mk.inj hin
    exact .of_next (exec_pack3 s) (exec_pack3 t) ⟨rfl, rfl, hw, by simp [hw, h0, h1, h2]⟩
  | pack2 =>
    obtain ⟨h0, h1⟩ := hin
    exact .of_next (exec_pack2 s) (exec_pack2 t) ⟨rfl, rfl, hw, by simp [hw, h0, h1]⟩
  | pack1 => exact .of_next (exec_pack1 s) (exec_pack1 t) ⟨rfl, rfl, hw, by simp [hw, show _ = _ from hin]⟩
  | unpk4 =>
    obtain ⟨h0, h1, h2, h3⟩ := Quad.mk.inj hin
    exact .of_next (exec_unpk4 s) (exec_unpk4 t) ⟨rfl, rfl, hw, by simp [hw, h0, h1, h2, h3]⟩
  | unpk3 =>
    obtain ⟨h0, h1, h2⟩ := hin
    exact .of_next (exec_unpk3 s) (exec_unpk3 t) ⟨rfl, rfl, hw, by simp [hw, h0, h1, h2]⟩
  | unpk2 =>
    obtain ⟨h0, h1⟩ := hin
    exact .of_next (exec_unpk2 s) (exec_unpk2 t) ⟨rfl, rfl, hw, by simp [hw, h0, h1]⟩
  | symat a l => exact symat_resultsAgree hc hw hin
  | idxof a l => exact idxof_resultsAgree hc hw hin
  | gfmt n =>
    obtain ⟨h0, h1, h2⟩ := hin
    exact gfmt_resultsAgree hc hw (firstBytes_congr h0 h1 h2)
  | gval f => exact gval_resultsAgree hc hw hin
  | encode =>
    obtain ⟨hl, hk⟩ := hin
    exact encode_resultsAgree hc hl (readInput_congr hl hk)
  | decode =>
    obtain ⟨hl, hk⟩ := hin
    exact decode_resultsAgree hc hl (readInput_congr hl hk)

end Sys2Proof.Machine

/-! ## Host access

The step that takes a given host event, one equation per kind of event; from them the statements about commands at the
port (O5), lane views (O52, O53), control registers (O54), buffer units (O56) and the reset event (O60). -/

namespace Sys2Proof.Machine

variable {s : State} {rest : List HostEvent}

/-! ### The address map -/

/-- Every register lies below 0x1000 (R58). -/
theorem regAt_eq_none {offset : Nat} (h : 0x1000 ≤ offset) : regAt offset = none := by
  unfold regAt
  split
  case h_11 => rfl
  all_goals omega

/-- The offsets of Y0 to Y3 (R58). -/
theorem regAt_symbol {l : Lane} {offset : Nat}
    (h : (l, offset) ∈ [(Lane.l0, 0x10), (.l1, 0x14), (.l2, 0x18), (.l3, 0x1C)]) : regAt offset = some (.symbol l) := by
  simp only [List.mem_cons, Prod.mk.injEq, List.not_mem_nil, or_false] at h
  rcases h with ⟨rfl, rfl⟩ | ⟨rfl, rfl⟩ | ⟨rfl, rfl⟩ | ⟨rfl, rfl⟩ <;> rfl

theorem portTarget_ibufBase_add {c : Config} {i : Nat} (h : i < c.ibufCap) :
    portTarget c (c.ibufBase + i) = some (.input i) := by
  obtain ⟨-, -, -, -, -, -, hbase, -⟩ := c.admitted
  have hreg : regAt (c.ibufBase + i) = none := regAt_eq_none (by omega)
  simp [portTarget, hreg, h]

/-- The ranges of the two buffers do not overlap (R58, log 5), so a unit of OBUF is none of IBUF. -/
theorem portTarget_obufBase_add {c : Config} {i : Nat} (h : i < c.obufCap) :
    portTarget c (c.obufBase + i) = some (.output i) := by
  obtain ⟨-, -, -, -, -, -, -, hbase, hdisj⟩ := c.admitted
  have hreg : regAt (c.obufBase + i) = none := regAt_eq_none (by omega)
  have hin : ¬ (c.ibufBase ≤ c.obufBase + i ∧ c.obufBase + i < c.ibufBase + c.ibufCap) := by omega
  simp [portTarget, hreg, hin, h]

/-! ### The step that takes a given event -/

theorem step_of_complete {e : HostEvent} {o : Host.Outcome State Fault Refusal} (hp : s.pending = e :: rest)
    (h : takeEvent e { s with pending := rest } = .complete o) : step s = o := by
  simp only [step, fetch, hp, h]

theorem step_reset (hp : s.pending = .reset :: rest) : step s = .next (State.applyReset { s with pending := rest }) :=
  step_of_complete hp rfl

/-- A read by the width of what is mapped there (R52, R58). -/
theorem step_read {offset width : Nat} {g : PortTarget} (hg : portTarget s.config offset = some g)
    (hw : g.width = width) (hp : s.pending = .read offset width :: rest) :
    step s = portRead offset g { s with pending := rest } :=
  step_of_complete hp (by simp only [takeEvent, hg, if_pos hw])

/-- A write, by the width of what is mapped there, of a place other than CMD (R52, R58). -/
theorem step_write {offset width : Nat} {v : Word} {g : PortTarget} (hg : portTarget s.config offset = some g)
    (hw : g.width = width) (hcmd : g ≠ .reg .cmd) (hp : s.pending = .write offset width v :: rest) :
    step s = .next (portWrite g v { s with pending := rest }) :=
  step_of_complete hp (by simp only [takeEvent, hg, if_pos hw, if_neg hcmd])

/-- A command word is handed to the core (R35). -/
theorem step_command {w : Word} {i : Instr} (hd : decode w = .ok i) (hp : s.pending = .write 0x00 32 w :: rest) :
    step s = exec i { s with pending := rest } := by
  have hg : portTarget s.config 0x00 = some (.reg .cmd) := portTarget_reg rfl
  simp only [step, fetch, hp, takeEvent, hg, PortTarget.width, if_true, hd]

/-! ### Registers -/

theorem step_writeReg {offset : Nat} {r : PortReg} {v : Word} (hr : regAt offset = some r) (hcmd : r ≠ .cmd)
    (hp : s.pending = .write offset 32 v :: rest) : step s = .next (regWrite r v { s with pending := rest }) :=
  step_write (g := .reg r) (portTarget_reg hr) rfl (fun h => hcmd (PortTarget.reg.inj h)) hp

/-- A register does not show the host's list. -/
theorem regAnswer_pending (r : PortReg) (s : State) (l : List HostEvent) :
    regAnswer r { s with pending := l } = regAnswer r s := by cases r <;> rfl

theorem step_readReg {offset : Nat} {r : PortReg} (hr : regAt offset = some r)
    (hp : s.pending = .read offset 32 :: rest) :
    step s = .next { s with pending := rest, returned := regAnswer r s :: s.returned } := by
  rw [step_read (portTarget_reg hr) rfl hp, ← regAnswer_pending r s rest]
  rfl

theorem step_readReg_defined {offset : Nat} {r : PortReg} (hr : regAt offset = some r) (hd : regDefined r s = true)
    (hp : s.pending = .read offset 32 :: rest) :
    step s = .next { s with pending := rest, returned := .register (regRead r s) :: s.returned } := by
  rw [step_readReg hr hp, regAnswer, if_pos hd]

/-- A register that holds no defined value answers its word, marked (R199, log 12). -/
theorem step_readReg_undefined {offset : Nat} {r : PortReg} (hr : regAt offset = some r) (hd : regDefined r s = false)
    (hp : s.pending = .read offset 32 :: rest) :
    step s = .next { s with pending := rest, returned := .unspecified (regRead r s) :: s.returned } := by
  rw [step_readReg hr hp, regAnswer, if_neg (by simp [hd])]

/-- `ERR` in 3:0, `CNT` in 5:4, zero above, by shift and or (R30). -/
theorem State.statusWord_eq (s : State) : s.statusWord = s.err.setWidth 32 ||| (s.cnt.setWidth 32 <<< 4) := by
  have h : ∀ (e : BitVec 4) (n : BitVec 2), (0#26 ++ n ++ e : Word) = e.setWidth 32 ||| (n.setWidth 32 <<< 4) := by decide
  exact h s.err s.cnt

theorem regDefined_breg (s : State) : regDefined .breg s = sourcesWritten .pack3 s := (sourcesWritten_pack3 s).symm

theorem regDefined_sreg (s : State) : regDefined .sreg s = sourcesWritten .unpk4 s := (sourcesWritten_unpk4 s).symm

/-! ### Buffer units -/

section Units

variable {offset i : Nat} {v : Byte}

theorem portRead_input_of_some (h : s.ibuf.read i = some v) :
    portRead offset (.input i) s = .next (s.return (.storageUnit v)) := by simp only [portRead, h]

theorem portRead_input_of_none (h : s.ibuf.read i = none) :
    portRead offset (.input i) s = .refused (.neverWrittenUnit offset) := by simp only [portRead, h]

theorem portRead_output_of_some (h : s.obuf.read i = some v) :
    portRead offset (.output i) s = .next (s.return (.storageUnit v)) := by simp only [portRead, h]

theorem portRead_output_of_none (h : s.obuf.read i = none) :
    portRead offset (.output i) s = .refused (.neverWrittenUnit offset) := by simp only [portRead, h]

end Units

/-! ### Reset -/

/-- A reset leaves no sextet lane and no symbol lane written (R41). -/
theorem State.afterReset_unwritten (c : Config) (n : Nat) :
    (∀ l, ((State.afterReset c n).sextets.get l).written = false) ∧
    ∀ l, ((State.afterReset c n).symbols.get l).written = false :=
  ⟨fun l => by cases l <;> rfl, fun l => by cases l <;> rfl⟩

/-! ### The obligations -/

/-- Settles O5: `step_command`. -/
theorem stepRunsDecodedCommand : Obligations.StepRunsDecodedCommand := fun _ _ _ _ hp hd => step_command hd hp

/-- Settles O52, view by view. -/
theorem laneViewsWriteAndRead : Obligations.LaneViewsWriteAndRead := by
  intro s v rest
  refine ⟨fun hp => ?_, fun hp => ?_, fun l off hl hp => ?_, fun hd hp => ?_, fun hd hp => ?_, fun l off hl hd hp => ?_⟩
  · exact step_writeReg (r := .breg) rfl nofun hp
  · exact step_writeReg (r := .sreg) rfl nofun hp
  · exact step_writeReg (regAt_symbol hl) nofun hp
  · exact step_readReg_defined (r := .breg) rfl ((regDefined_breg s).trans hd) hp
  · exact step_readReg_defined (r := .sreg) rfl ((regDefined_sreg s).trans hd) hp
  · exact step_readReg_defined (regAt_symbol hl) hd hp

/-- Settles O53, view by view. -/
theorem undefinedReadsMarked : Obligations.UndefinedReadsMarked := by
  intro s rest
  refine ⟨fun hd hp => ?_, fun hd hp => ?_, fun l off hl hd hp => ?_, fun hd hp => ?_⟩
  · exact step_readReg_undefined (r := .breg) rfl ((regDefined_breg s).trans hd) hp
  · exact step_readReg_undefined (r := .sreg) rfl ((regDefined_sreg s).trans hd) hp
  · exact step_readReg_undefined (regAt_symbol hl) hd hp
  · rw [← State.statusWord_eq]
    exact step_readReg_undefined (r := .status) rfl hd hp

/-- Settles O54, register by register. -/
theorem controlRegisterReads : Obligations.ControlRegisterReads := by
  intro s rest
  refine ⟨fun hd hp => ?_, fun hp => ?_, fun hp => ?_, fun hp => ?_⟩
  · rw [← State.statusWord_eq]
    exact step_readReg_defined (r := .status) rfl hd hp
  · exact step_readReg_defined (r := .ilen) rfl rfl hp
  · exact step_readReg_defined (r := .olen) rfl rfl hp
  · exact step_readReg_defined (r := .cmd) rfl rfl hp

/-- Settles O56: the unit's offset is mapped to it, and the read of it has its two cases. -/
theorem bufferUnitReads : Obligations.BufferUnitReads := by
  intro s rest i
  constructor <;> intro hi hp
  · rw [step_read (portTarget_ibufBase_add hi) rfl hp]
    exact ⟨fun _ hv => portRead_input_of_some hv, fun hv => portRead_input_of_none hv⟩
  · rw [step_read (portTarget_obufBase_add hi) rfl hp]
    exact ⟨fun _ hv => portRead_output_of_some hv, fun hv => portRead_output_of_none hv⟩

/-- Settles O60: both states are `State.afterReset` but for the host's lists. -/
theorem resetLeavesTheTable : Obligations.ResetLeavesTheTable := by
  constructor
  · intro s rest hp
    obtain ⟨hx, hy⟩ := State.afterReset_unwritten s.config (s.resets + 1)
    exact ⟨_, step_reset hp, rfl, rfl, rfl, rfl, rfl, rfl, fun _ => rfl, fun _ => rfl, rfl, rfl, rfl, hx, hy, rfl, rfl⟩
  · obtain ⟨hx, hy⟩ := State.afterReset_unwritten Config.default 0
    exact ⟨rfl, rfl, rfl, rfl, rfl, rfl, fun _ => rfl, fun _ => rfl, rfl, rfl, rfl, hx, hy⟩

end Sys2Proof.Machine

/-! ## Memory

The text of a symbol string unit by unit, and back (O24); which offset names what, and hence what the accesses of the host
do: where they stop (O59), what they change (O55), and when a step answers a next state (O48). -/

namespace Sys2Proof.Machine

variable {s : State} {rest : List HostEvent}

/-! ### The units of a symbol string -/

/-- The three units of a symbol, joined again, are the symbol (R55). -/
theorem symbolOfUnits_unitsOfSymbol (y : Symbol) :
    symbolOfUnits (y.extractLsb' 16 8) (y.extractLsb' 8 8) (y.extractLsb' 0 8) = y := by
  unfold symbolOfUnits
  rw [BitVec.extractLsb'_append_extractLsb'_eq_extractLsb' (show 16 = 8 + 8 from rfl),
    BitVec.extractLsb'_append_extractLsb'_eq_extractLsb' (show 8 = 0 + 8 from rfl), BitVec.extractLsb'_eq_self]

theorem symbolsOf_textOf (ys : List Symbol) : symbolsOf (textOf ys) = ys := by
  induction ys with
  | nil => rfl
  | cons y ys ih =>
    calc symbolsOf (textOf (y :: ys))
      _ = symbolOfUnits (y.extractLsb' 16 8) (y.extractLsb' 8 8) (y.extractLsb' 0 8) :: symbolsOf (textOf ys) := rfl
      _ = y :: ys := by rw [symbolOfUnits_unitsOfSymbol, ih]

/-- Unit `j` of symbol `k` stands at `3 * k + j` of the text (R55). -/
theorem textOf_getElem? (ys : List Symbol) (k : Nat) {j : Nat} (hj : j < 3) :
    (textOf ys)[3 * k + j]? = ys[k]?.bind fun y => (unitsOfSymbol y)[j]? := by
  induction ys generalizing k with
  | nil => simp
  | cons y ys ih =>
    rw [textOf_cons]
    cases k with
    | zero =>
      rw [Nat.mul_zero, Nat.zero_add, List.getElem?_append_left hj]
      rfl
    | succ k =>
      have hk : 3 * (k + 1) + j = 3 + (3 * k + j) := by omega
      rw [hk, List.getElem?_append_right (Nat.le_add_right 3 _), unitsOfSymbol_length, Nat.add_sub_cancel_left, ih,
        List.getElem?_cons_succ]

/-! ### The address map, offset by offset -/

/-- The registers are at the offsets of R58. -/
theorem regAt_isSome_iff (offset : Nat) : (regAt offset).isSome = true ↔ offset ∈ registerOffsets := by
  unfold regAt
  split
  case h_11 => simp_all [registerOffsets]
  all_goals decide

theorem regAt_eq_cmd_iff (offset : Nat) : regAt offset = some .cmd ↔ offset = 0x00 := by
  unfold regAt
  split
  case h_11 => simp_all
  all_goals simp

/-- An offset names a register, else a unit of IBUF, else a unit of OBUF, else nothing (R57, R58). -/
theorem portTarget_cases (c : Config) (offset : Nat) :
    (∃ r, regAt offset = some r ∧ offset ∈ registerOffsets ∧ portTarget c offset = some (.reg r)) ∨
    (offset ∉ registerOffsets ∧ inInput c offset = true ∧ portTarget c offset = some (.input (offset - c.ibufBase))) ∨
    (offset ∉ registerOffsets ∧ inInput c offset = false ∧ inOutput c offset = true ∧
      portTarget c offset = some (.output (offset - c.obufBase))) ∨
    (offset ∉ registerOffsets ∧ inInput c offset = false ∧ inOutput c offset = false ∧ portTarget c offset = none) := by
  have hmem := regAt_isSome_iff offset
  cases hr : regAt offset with
  | some r => exact .inl ⟨r, rfl, hmem.1 (by rw [hr]; rfl), portTarget_reg hr⟩
  | none =>
    have hm : offset ∉ registerOffsets := by simpa [hr] using hmem
    refine .inr ?_
    by_cases hin : c.ibufBase ≤ offset ∧ offset < c.ibufBase + c.ibufCap
    · exact .inl ⟨hm, decide_eq_true hin, by simp [portTarget, hr, hin]⟩
    by_cases hout : c.obufBase ≤ offset ∧ offset < c.obufBase + c.obufCap
    · exact .inr (.inl ⟨hm, decide_eq_false hin, decide_eq_true hout, by simp [portTarget, hr, hin, hout]⟩)
    · exact .inr (.inr ⟨hm, decide_eq_false hin, decide_eq_false hout, by simp [portTarget, hr, hin, hout]⟩)

/-- Nothing is mapped outside the registers and the two buffers (R57). -/
theorem portTarget_eq_none_iff (c : Config) (offset : Nat) :
    portTarget c offset = none ↔ offset ∉ registerOffsets ∧ inInput c offset = false ∧ inOutput c offset = false := by
  rcases portTarget_cases c offset with ⟨r, -, hm, h⟩ | ⟨hm, hin, h⟩ | ⟨hm, hin, hout, h⟩ | ⟨hm, hin, hout, h⟩ <;>
    simp [*]

theorem offset_eq_zero_of_cmd {c : Config} {offset : Nat} (hg : portTarget c offset = some (.reg .cmd)) :
    offset = 0x00 := by
  rcases portTarget_cases c offset with ⟨r, hr, -, h⟩ | ⟨-, -, h⟩ | ⟨-, -, -, h⟩ | ⟨-, -, -, h⟩ <;> cases h.symm.trans hg
  exact (regAt_eq_cmd_iff offset).1 hr

/-! ### Steps on an illegal word and steps that stop -/

/-- A word that is no command is reported in STATUS (R79). -/
theorem step_illegal {w : Word} {r : DecodeError} (hd : decode w = .error r)
    (hp : s.pending = .write 0x00 32 w :: rest) :
    step s = .next (State.raise true .illegalCommand { s with pending := rest }) := by
  have hg : portTarget s.config 0x00 = some (.reg .cmd) := portTarget_reg rfl
  simp only [step, fetch, hp, takeEvent, hg, PortTarget.width, if_true, hd, execIllegal]

section Stops

variable {offset width : Nat} {v : Word}

/-- An access where nothing is mapped (R57, log 8). -/
theorem step_unmapped (hg : portTarget s.config offset = none)
    (hp : s.pending = .read offset width :: rest ∨ s.pending = .write offset width v :: rest) :
    step s = .fault (.unmappedAddress offset) := by
  rcases hp with hp | hp <;> exact step_of_complete hp (by simp only [takeEvent, hg])

/-- An access by another width than that of what is mapped there (R52, R57, log 8). -/
theorem step_wrongWidth {g : PortTarget} (hg : portTarget s.config offset = some g) (hw : g.width ≠ width)
    (hp : s.pending = .read offset width :: rest ∨ s.pending = .write offset width v :: rest) :
    step s = .refused (.wrongWidth offset width) := by
  rcases hp with hp | hp <;> exact step_of_complete hp (by simp only [takeEvent, hg, if_neg hw])

end Stops

/-! ### Where a command runs -/

theorem exec_encode_next_iff (s : State) : (∃ t, exec .encode s = .next t) ↔ inputWritten .encode s = true := by
  constructor
  · rintro ⟨t, h⟩
    rcases execEncode_next h with ⟨hc, -⟩ | ⟨-, x, hx, -⟩
    · simp [inputWritten, sourcesWritten, hc]
    · simp [inputWritten, sourcesWritten, hx]
  · intro h
    by_cases hc : s.config.ibufCap < s.ilen.toNat
    · exact ⟨_, exec_encode_badLength hc⟩
    obtain ⟨x, hx⟩ := Option.isSome_iff_exists.1 (show (s.ibuf.readUnits 0 s.ilen.toNat).isSome = true by
      simpa [inputWritten, sourcesWritten, hc] using h)
    exact ⟨_, exec_encode_of_units (Nat.not_lt.1 hc) hx⟩

theorem exec_decode_next_iff (s : State) : (∃ t, exec .decode s = .next t) ↔ inputWritten .decode s = true := by
  constructor
  · rintro ⟨t, h⟩
    rcases execDecode_next h with ⟨hc, -⟩ | ⟨-, k, hk, -⟩ | ⟨-, -, us, hu, -⟩
    · simp [inputWritten, sourcesWritten, hc]
    · simp [inputWritten, sourcesWritten, hk]
    · simp [inputWritten, sourcesWritten, hu]
  · intro h
    by_cases hc : s.config.ibufCap < s.ilen.toNat
    · exact ⟨_, exec_decode_badLength hc⟩
    have hc' := Nat.not_lt.1 hc
    cases hl : lengthError s.ilen.toNat with
    | some k => exact ⟨_, exec_decode_lengthError hc' hl⟩
    | none =>
      obtain ⟨us, hu⟩ := Option.isSome_iff_exists.1 (show (s.ibuf.readUnits 0 s.ilen.toNat).isSome = true by
        simpa [inputWritten, sourcesWritten, hc, hl] using h)
      cases hd : decodeText s.config us with
      | ok bs => exact ⟨_, exec_decode_of_ok hc' hl hu hd⟩
      | error k => exact ⟨_, exec_decode_of_error hc' hl hu hd⟩

/-- Every command runs, ENCODE and DECODE over an input with values only (R186, R199, R202). -/
theorem exec_next_iff (i : Instr) (s : State) : (∃ t, exec i s = .next t) ↔ inputWritten i s = true := by
  cases i with
  | encode => exact exec_encode_next_iff s
  | decode => exact exec_decode_next_iff s
  | gfmt n =>
    refine ⟨fun _ => rfl, fun _ => ?_⟩
    by_cases hn : n = 0
    · exact ⟨_, hn ▸ exec_gfmt_zero s⟩
    · exact ⟨_, exec_gfmt hn s⟩
  | pack3 | pack2 | pack1 | unpk4 | unpk3 | unpk2 | symat a l | idxof a l | gval f => exact ⟨fun _ => rfl, fun _ => ⟨_, rfl⟩⟩

/-- The host's list is no input of a command. -/
theorem inputWritten_pending (i : Instr) (s : State) (l : List HostEvent) :
    inputWritten i { s with pending := l } = inputWritten i s := by cases i <;> rfl

/-! ### Where an access runs -/

/-- A mapped place has a value for the host: a unit that was written, or a register, which always holds a word (R199,
log 12). -/
def PortTarget.hasValue (s : State) : PortTarget → Bool
  | .reg _ => true
  | .input i => (s.ibuf.read i).isSome
  | .output i => (s.obuf.read i).isSome

theorem portRead_next_iff (offset : Nat) (g : PortTarget) (s : State) :
    (∃ t, portRead offset g s = .next t) ↔ g.hasValue s = true := by
  cases g with
  | reg r => exact ⟨fun _ => rfl, fun _ => ⟨_, rfl⟩⟩
  | input i => cases h : s.ibuf.read i <;> simp [portRead, PortTarget.hasValue, h]
  | output i => cases h : s.obuf.read i <;> simp [portRead, PortTarget.hasValue, h]

/-- The host's list is no value of a mapped place. -/
theorem PortTarget.hasValue_pending (g : PortTarget) (s : State) (l : List HostEvent) :
    g.hasValue { s with pending := l } = g.hasValue s := by cases g <;> rfl

section Events

variable {offset width : Nat} {v : Word} {g : PortTarget}

theorem eventRuns_read_unmapped (hg : portTarget s.config offset = none) :
    eventRuns (.read offset width) s = false := by
  obtain ⟨hm, hin, hout⟩ := (portTarget_eq_none_iff _ _).1 hg
  simp [eventRuns, hm, hin, hout]

theorem eventRuns_write_unmapped (hg : portTarget s.config offset = none) :
    eventRuns (.write offset width v) s = false := by
  obtain ⟨hm, hin, hout⟩ := (portTarget_eq_none_iff _ _).1 hg
  simp [eventRuns, hm, hin, hout]

theorem eventRuns_read_mapped (hg : portTarget s.config offset = some g) :
    eventRuns (.read offset width) s = (width == g.width && g.hasValue s) := by
  rcases portTarget_cases s.config offset with ⟨r, -, hm, h⟩ | ⟨hm, hin, h⟩ | ⟨hm, hin, hout, h⟩ | ⟨-, -, -, h⟩ <;>
    cases h.symm.trans hg
  · simp [eventRuns, hm, PortTarget.width, PortTarget.hasValue]
  · simp [eventRuns, hm, hin, PortTarget.width, PortTarget.hasValue]
  · simp [eventRuns, hm, hin, hout, PortTarget.width, PortTarget.hasValue]

/-- A write of a place other than CMD needs the right width only (R57 to R59). -/
theorem eventRuns_write_mapped (hg : portTarget s.config offset = some g) (hcmd : g ≠ .reg .cmd) :
    eventRuns (.write offset width v) s = (width == g.width) := by
  rcases portTarget_cases s.config offset with ⟨r, hr, hm, h⟩ | ⟨hm, hin, h⟩ | ⟨hm, hin, hout, h⟩ | ⟨-, -, -, h⟩ <;>
    cases h.symm.trans hg
  · have hne : offset ≠ 0x00 := by
      rintro rfl
      exact hcmd (congrArg _ (Option.some.inj hr).symm)
    simp [eventRuns, hm, hne, PortTarget.width]
  · simp [eventRuns, hm, hin, PortTarget.width]
  · simp [eventRuns, hm, hin, hout, PortTarget.width]

theorem step_read_next_iff (hp : s.pending = .read offset width :: rest) :
    (∃ t, step s = .next t) ↔ eventRuns (.read offset width) s = true := by
  cases hg : portTarget s.config offset with
  | none => simp [step_unmapped (v := 0) hg (.inl hp), eventRuns_read_unmapped hg]
  | some g =>
    rw [eventRuns_read_mapped hg]
    by_cases hw : g.width = width
    · rw [step_read hg hw hp, portRead_next_iff, PortTarget.hasValue_pending]
      simp [hw]
    · simp [step_wrongWidth (v := 0) hg hw (.inl hp), Ne.symm hw]

/-- A command word runs its command, an illegal one is reported (R35, R79). -/
theorem step_commandWord_next_iff {w : Word} (hp : s.pending = .write 0x00 32 w :: rest) :
    (∃ t, step s = .next t) ↔ eventRuns (.write 0x00 32 w) s = true := by
  cases hd : decode w with
  | ok i =>
    rw [step_command hd hp, exec_next_iff, inputWritten_pending]
    simp [eventRuns, registerOffsets, hd]
  | error r =>
    rw [step_illegal hd hp]
    simp [eventRuns, registerOffsets, hd]

theorem step_write_next_iff (hp : s.pending = .write offset width v :: rest) :
    (∃ t, step s = .next t) ↔ eventRuns (.write offset width v) s = true := by
  cases hg : portTarget s.config offset with
  | none => simp [step_unmapped hg (.inr hp), eventRuns_write_unmapped hg]
  | some g =>
    by_cases hcmd : g = .reg .cmd
    · subst hcmd
      obtain rfl := offset_eq_zero_of_cmd hg
      by_cases hw : 32 = width
      · subst hw
        exact step_commandWord_next_iff hp
      · simp [step_wrongWidth hg hw (.inr hp), eventRuns, registerOffsets, Ne.symm hw]
    · rw [eventRuns_write_mapped hg hcmd]
      by_cases hw : g.width = width
      · simp [step_write hg hw hcmd hp, hw]
      · simp [step_wrongWidth hg hw (.inr hp), Ne.symm hw]

end Events

/-! ### The obligations -/

/-- Settles O24, unit by unit, and by `symbolsOf_textOf`. -/
theorem symbolUnitsMostSignificantFirst : Obligations.SymbolUnitsMostSignificantFirst := by
  refine ⟨fun ys k => ⟨?_, ?_, ?_⟩, symbolsOf_textOf⟩
  · exact (textOf_getElem? ys k (j := 0) (by decide)).trans Option.map_eq_bind.symm
  · exact (textOf_getElem? ys k (j := 1) (by decide)).trans Option.map_eq_bind.symm
  · exact (textOf_getElem? ys k (j := 2) (by decide)).trans Option.map_eq_bind.symm

/-- Settles O48, by the next event: a reset always runs, and the accesses have their own equivalences. -/
theorem stepAnswersNextExactlyWhereItRuns : Obligations.StepAnswersNextExactlyWhereItRuns := by
  intro s
  cases hp : s.pending with
  | nil =>
    have hidle : step s = .next s := by simp only [step, fetch, hp]
    simp [hidle, stepRuns, hp]
  | cons e rest =>
    have hruns : stepRuns s = eventRuns e s := by simp only [stepRuns, hp]
    rw [hruns]
    cases e with
    | reset => exact ⟨fun _ => rfl, fun _ => ⟨_, step_reset hp⟩⟩
    | read offset width => exact step_read_next_iff hp
    | write offset width v => exact step_write_next_iff hp

/-- Settles O55: the cases of a step for the reads, the equations of a write for the writes. -/
theorem hostAccessSideEffects : Obligations.HostAccessSideEffects := by
  intro s rest
  refine ⟨fun off width t hp h => ?_, fun off v hoff hp => ?_, fun i v hi hp => ?_, fun v hp => ?_, fun i v hi hp => ?_⟩
  · rcases step_next_cases h with ⟨hnil, -⟩ | ⟨e, rest', hp', hcase⟩
    · cases hnil.symm.trans hp
    obtain ⟨rfl, rfl⟩ := List.cons.inj (hp.symm.trans hp')
    rcases hcase with ⟨⟨⟩, -⟩ | ⟨_, _, v, -, rfl⟩ | ⟨_, _, _, _, ⟨⟩, -⟩ | ⟨_, _, _, ⟨⟩, -⟩ | ⟨_, _, _, ⟨⟩, -⟩
    exact ⟨v, rfl⟩
  · rcases hoff with rfl | rfl
    · exact step_writeReg (r := .status) rfl nofun hp
    · exact step_writeReg (r := .olen) rfl nofun hp
  · exact step_write (portTarget_obufBase_add hi) rfl nofun hp
  · exact step_writeReg (r := .ilen) rfl nofun hp
  · exact ⟨_, step_write (portTarget_ibufBase_add hi) rfl nofun hp, rfl, Memory.read_write_same _ _ _,
      fun k hk => Memory.read_write_other _ _ hk⟩

/-- Settles O59: what the offset names, by `portTarget_cases`, and the two steps that stop. -/
theorem unmappedAccessesStop : Obligations.UnmappedAccessesStop := by
  intro s rest off width v hp
  refine ⟨fun hreg hunit => ?_, fun hreg hw => ?_, fun hunit hw => ?_⟩
  · rw [not_or] at hunit
    exact step_unmapped ((portTarget_eq_none_iff _ _).2 ⟨hreg, decide_eq_false hunit.1, decide_eq_false hunit.2⟩) hp
  · obtain ⟨r, hr⟩ := Option.isSome_iff_exists.1 ((regAt_isSome_iff off).2 hreg)
    exact step_wrongWidth (portTarget_reg hr) hw.symm hp
  · rcases hunit with ⟨hle, hlt⟩ | ⟨hle, hlt⟩ <;> obtain ⟨i, rfl⟩ := Nat.exists_eq_add_of_le hle
    · exact step_wrongWidth (portTarget_ibufBase_add (Nat.add_lt_add_iff_left.1 hlt)) hw.symm hp
    · exact step_wrongWidth (portTarget_obufBase_add (Nat.add_lt_add_iff_left.1 hlt)) hw.symm hp

end Sys2Proof.Machine

/-! ## Encoding

Command words to commands and back: the fields of a word, what the opcode map can answer, and from them the statements
about the decoder (O1 to O4); the term GFMT 0 (O26); the load lines of a host program (O57, O58). -/

namespace Sys2Proof.Machine

variable {s : State} {rest : List HostEvent} {w : Word}

/-! ### Words from fields -/

section Fields

variable {m n : Nat} {v : BitVec (m + n)} {x : BitVec m}

/-- A word is two fields exactly where each of them is read back. -/
theorem append_eq_iff {y : BitVec n} : x ++ y = v ↔ v.extractLsb' n m = x ∧ v.extractLsb' 0 n = y := by
  constructor
  · rintro rfl
    exact ⟨BitVec.extractLsb'_append_eq_left, BitVec.extractLsb'_append_eq_right⟩
  · rintro ⟨rfl, rfl⟩
    exact BitVec.extractLsb'_append_extractLsb'

/-- A match under a mask of leading ones is a match of the leading field (R78). -/
theorem and_mask_eq_iff : v &&& (BitVec.allOnes m ++ 0#n) = x ++ 0#n ↔ v.extractLsb' n m = x := by
  rw [← BitVec.extractLsb'_append_extractLsb' (x := v), BitVec.and_append, BitVec.and_allOnes, BitVec.and_zero,
    BitVec.append_left_inj, BitVec.extractLsb'_append_eq_left]

/-- Where the trailing field may hold anything, match and mask say all of the word (R78). -/
theorem exists_append_eq_iff {α : Type} {g : α → BitVec n} (hg : Function.Surjective g) :
    (∃ a, x ++ g a = v) ↔ v &&& (BitVec.allOnes m ++ 0#n) = x ++ 0#n := by
  rw [and_mask_eq_iff]
  constructor
  · rintro ⟨a, ha⟩
    exact (append_eq_iff.1 ha).1
  · intro hx
    obtain ⟨a, ha⟩ := hg (v.extractLsb' 0 n)
    exact ⟨a, append_eq_iff.2 ⟨hx, ha.symm⟩⟩

end Fields

/-- A word is its three fields (R76). -/
theorem fields_append (w : Word) : opcodeField w ++ zeroField w ++ argField w = w := by
  unfold opcodeField zeroField argField
  rw [BitVec.extractLsb'_append_extractLsb'_eq_extractLsb' (show 24 = 8 + 16 from rfl)]
  exact BitVec.extractLsb'_append_extractLsb'

/-- A field of the argument byte is a field of the word (R76, R77). -/
theorem argField_extractLsb' (w : Word) {k len : Nat} (h : k + len ≤ 8) :
    (argField w).extractLsb' k len = w.extractLsb' k len := BitVec.extractLsb'_extractLsb'_of_le h

/-! ### The operand fields -/

@[simp] theorem alphabetBit_alphabetOf (b : BitVec 1) : alphabetBit (alphabetOf b) = b := by decide +revert

@[simp] theorem laneBits_laneOf (b : BitVec 2) : laneBits (laneOf b) = b := by decide +revert

theorem laneBits_eq_iff (l : Lane) : (laneBits l = 0 ↔ l = .l0) ∧ (laneBits l = 1 ↔ l = .l1) ∧
    (laneBits l = 2 ↔ l = .l2) ∧ (laneBits l = 3 ↔ l = .l3) := by
  cases l <;> decide

/-! ### The argument byte of each format -/

section Formats

variable {arg : BitVec 8} {i j : Instr}

theorem decodeZ_eq_ok_iff : decodeZ i arg = .ok j ↔ arg = 0 ∧ i = j := by
  unfold decodeZ
  split <;> simp_all

theorem decodeZ_eq_error_iff : (∃ e, decodeZ i arg = .error e) ↔ arg ≠ 0 := by
  unfold decodeZ
  split <;> simp_all

theorem eq_of_decodeL_eq_ok {f : Alphabet → Lane → Instr} (h : decodeL f arg = .ok j) :
    ∃ a l, f a l = j ∧ 0#5 ++ alphabetBit a ++ laneBits l = arg := by
  unfold decodeL at h
  split at h
  · next h0 =>
    cases h
    refine ⟨_, _, rfl, ?_⟩
    rw [alphabetBit_alphabetOf, laneBits_laneOf, ← show _ = 0#5 from h0,
      BitVec.extractLsb'_append_extractLsb'_eq_extractLsb' (show 3 = 2 + 1 from rfl)]
    exact BitVec.extractLsb'_append_extractLsb'
  · cases h

theorem decodeL_eq_error_iff {f : Alphabet → Lane → Instr} :
    (∃ e, decodeL f arg = .error e) ↔ arg.extractLsb' 3 5 ≠ 0 := by
  unfold decodeL
  split <;> simp_all

theorem eq_of_decodeN_eq_ok {f : BitVec 2 → Instr} (h : decodeN f arg = .ok j) :
    ∃ n, n ≠ 0 ∧ f n = j ∧ 0#6 ++ n = arg := by
  unfold decodeN at h
  split_ifs at h with h6 hn
  cases h
  refine ⟨_, hn, rfl, ?_⟩
  rw [← show _ = 0#6 from h6]
  exact BitVec.extractLsb'_append_extractLsb'

theorem decodeN_eq_error_iff {f : BitVec 2 → Instr} :
    (∃ e, decodeN f arg = .error e) ↔ arg.extractLsb' 2 6 ≠ 0 ∨ arg.extractLsb' 0 2 = 0 := by
  unfold decodeN
  split_ifs <;> simp_all

theorem eq_of_decodeF_eq_ok {f : Bool → Instr} (h : decodeF f arg = .ok j) :
    ∃ b, f b = j ∧ 0#7 ++ BitVec.ofBool b = arg := by
  unfold decodeF at h
  split_ifs at h with h7
  cases h
  refine ⟨_, rfl, ?_⟩
  have hbit : BitVec.ofBool (arg.getLsbD 0) = arg.extractLsb' 0 1 := by
    rw [← BitVec.setWidth_one, BitVec.setWidth_eq_extractLsb' (by decide)]
  rw [hbit, ← show _ = 0#7 from h7]
  exact BitVec.extractLsb'_append_extractLsb'

theorem decodeF_eq_error_iff {f : Bool → Instr} :
    (∃ e, decodeF f arg = .error e) ↔ arg.extractLsb' 1 7 ≠ 0 := by
  unfold decodeF
  split <;> simp_all

end Formats

/-! ### The opcode map -/

/-- The opcodes of format Z (R78). -/
def plainOpcodes : List (BitVec 8) := [0x01, 0x02, 0x03, 0x04, 0x05, 0x06, 0x10, 0x11]

/-- The opcodes assigned to a command (R78). -/
def assignedOpcodes : List (BitVec 8) := [0x01, 0x02, 0x03, 0x04, 0x05, 0x06, 0x08, 0x09, 0x0A, 0x0B, 0x10, 0x11]

theorem decodeOpcode_of_unassigned {opc arg : BitVec 8} (h : opc ∉ assignedOpcodes) :
    decodeOpcode opc arg = .error .unassignedOpcode := by
  have hnat : opc.toNat ∉ assignedOpcodes.map BitVec.toNat := by
    rwa [List.mem_map_of_injective fun _ _ => BitVec.eq_of_toNat_eq]
  unfold decodeOpcode
  split
  case h_13 => rfl
  all_goals exact absurd (by rw [‹opc.toNat = _›]; decide) hnat

/-- What the opcode map answers: a command of format Z, one of the four with operands, or no command (R78). -/
theorem decodeOpcode_cases (opc arg : BitVec 8) :
    (opc ∈ plainOpcodes ∧ ∃ i, decodeOpcode opc arg = decodeZ i arg ∧ opcodeOf i = opc ∧ argOf i = 0 ∧
      i.wellFormed = true) ∨
    (opc = 0x08 ∧ decodeOpcode opc arg = decodeL .symat arg) ∨
    (opc = 0x09 ∧ decodeOpcode opc arg = decodeL .idxof arg) ∨
    (opc = 0x0A ∧ decodeOpcode opc arg = decodeN .gfmt arg) ∨
    (opc = 0x0B ∧ decodeOpcode opc arg = decodeF .gval arg) ∨
    (opc ∉ assignedOpcodes ∧ decodeOpcode opc arg = .error .unassignedOpcode) := by
  by_cases hplain : opc ∈ plainOpcodes
  · refine .inl ⟨hplain, ?_⟩
    simp only [plainOpcodes, List.mem_cons, List.not_mem_nil, or_false] at hplain
    rcases hplain with rfl | rfl | rfl | rfl | rfl | rfl | rfl | rfl <;> exact ⟨_, rfl, rfl, rfl, rfl⟩
  by_cases h8 : opc = 0x08
  · exact .inr (.inl ⟨h8, h8 ▸ rfl⟩)
  by_cases h9 : opc = 0x09
  · exact .inr (.inr (.inl ⟨h9, h9 ▸ rfl⟩))
  by_cases hA : opc = 0x0A
  · exact .inr (.inr (.inr (.inl ⟨hA, hA ▸ rfl⟩)))
  by_cases hB : opc = 0x0B
  · exact .inr (.inr (.inr (.inr (.inl ⟨hB, hB ▸ rfl⟩))))
  have hnone : opc ∉ assignedOpcodes := by
    simp only [plainOpcodes, assignedOpcodes, List.mem_cons, List.not_mem_nil] at hplain ⊢
    tauto
  exact .inr (.inr (.inr (.inr (.inr ⟨hnone, decodeOpcode_of_unassigned hnone⟩))))

/-! ### Decoder and encoder -/

theorem decode_encode {i : Instr} (h : i.wellFormed = true) : decode (encode i) = .ok i := by
  cases i with
  | pack3 | pack2 | pack1 | unpk4 | unpk3 | unpk2 | encode | decode => rfl
  | symat a l | idxof a l => cases a <;> cases l <;> rfl
  | gfmt n =>
    have hn : ∀ n : BitVec 2, n ≠ 0 → decode (encode (.gfmt n)) = .ok (.gfmt n) := by decide
    exact hn n (by simpa [Instr.wellFormed] using h)
  | gval f => cases f <;> rfl

theorem decodeOpcode_eq_ok {opc arg : BitVec 8} {i : Instr} (h : decodeOpcode opc arg = .ok i) :
    i.wellFormed = true ∧ opcodeOf i = opc ∧ argOf i = arg := by
  rcases decodeOpcode_cases opc arg with ⟨-, j, hd, hopc, harg, hwf⟩ | ⟨rfl, hd⟩ | ⟨rfl, hd⟩ | ⟨rfl, hd⟩ | ⟨rfl, hd⟩ |
    ⟨-, hd⟩ <;> rw [hd] at h
  · obtain ⟨rfl, rfl⟩ := decodeZ_eq_ok_iff.1 h
    exact ⟨hwf, hopc, harg⟩
  · obtain ⟨a, l, rfl, ha⟩ := eq_of_decodeL_eq_ok h
    exact ⟨rfl, rfl, ha⟩
  · obtain ⟨a, l, rfl, ha⟩ := eq_of_decodeL_eq_ok h
    exact ⟨rfl, rfl, ha⟩
  · obtain ⟨n, hn, rfl, ha⟩ := eq_of_decodeN_eq_ok h
    exact ⟨by simpa [Instr.wellFormed] using hn, rfl, ha⟩
  · obtain ⟨f, rfl, ha⟩ := eq_of_decodeF_eq_ok h
    exact ⟨rfl, rfl, ha⟩
  · cases h

theorem encode_of_decode {i : Instr} (h : decode w = .ok i) : i.wellFormed = true ∧ encode i = w := by
  unfold decode at h
  split_ifs at h with hz
  obtain ⟨hwf, hopc, harg⟩ := decodeOpcode_eq_ok h
  refine ⟨hwf, ?_⟩
  rw [encode, hopc, harg, ← show _ = 0#16 from hz]
  exact fields_append w

theorem decode_eq_ok_iff {i : Instr} : decode w = .ok i ↔ i.wellFormed = true ∧ encode i = w := by
  refine ⟨encode_of_decode, ?_⟩
  rintro ⟨hwf, rfl⟩
  exact decode_encode hwf

/-! ### Match and mask -/

/-- A command without operands is one word (R78). -/
theorem decode_plain_iff {i : Instr} (hwf : i.wellFormed = true) :
    decode w = .ok i ↔ w &&& 0xFFFFFFFF = encode i := by
  have hmask : w &&& 0xFFFFFFFF = w := BitVec.and_allOnes
  rw [decode_eq_ok_iff, hmask]
  simp [hwf, eq_comm]

/-- The three operand bits of format L (R76). -/
def laneOperands (p : Alphabet × Lane) : BitVec 3 := alphabetBit p.1 ++ laneBits p.2

theorem laneOperands_surjective : Function.Surjective laneOperands := fun v =>
  ⟨(alphabetOf (v.extractLsb' 2 1), laneOf (v.extractLsb' 0 2)), by
    rw [laneOperands, alphabetBit_alphabetOf, laneBits_laneOf]
    exact BitVec.extractLsb'_append_extractLsb'⟩

theorem encode_symat (a : Alphabet) (l : Lane) : encode (.symat a l) = 0x01000000#29 ++ laneOperands (a, l) := by
  cases a <;> cases l <;> rfl

theorem encode_idxof (a : Alphabet) (l : Lane) : encode (.idxof a l) = 0x01200000#29 ++ laneOperands (a, l) := by
  cases a <;> cases l <;> rfl

theorem encode_gfmt (n : BitVec 2) : encode (.gfmt n) = 0x02800000#30 ++ n := by decide +revert

theorem encode_gval (f : Bool) : encode (.gval f) = 0x05800000#31 ++ BitVec.ofBool f := by cases f <;> rfl

theorem decode_symat_iff : (∃ a l, decode w = .ok (.symat a l)) ↔ w &&& 0xFFFFFFF8 = 0x08000000 := by
  simp only [decode_eq_ok_iff, encode_symat, Instr.wellFormed, true_and]
  exact Prod.exists.symm.trans (exists_append_eq_iff (m := 29) laneOperands_surjective)

theorem decode_idxof_iff : (∃ a l, decode w = .ok (.idxof a l)) ↔ w &&& 0xFFFFFFF8 = 0x09000000 := by
  simp only [decode_eq_ok_iff, encode_idxof, Instr.wellFormed, true_and]
  exact Prod.exists.symm.trans (exists_append_eq_iff (m := 29) laneOperands_surjective)

theorem decode_gval_iff : (∃ f, decode w = .ok (.gval f)) ↔ w &&& 0xFFFFFFFE = 0x0B000000 := by
  simp only [decode_eq_ok_iff, encode_gval, Instr.wellFormed, true_and]
  exact exists_append_eq_iff (m := 31) (n := 1) (g := BitVec.ofBool) (by decide)

/-- GFMT is a command where `N` is not 0 (R78, R79). -/
theorem decode_gfmt_eq_ok_iff {n : BitVec 2} :
    decode w = .ok (.gfmt n) ↔ n ≠ 0 ∧ w &&& 0xFFFFFFFC = 0x0A000000 ∧ w.extractLsb' 0 2 = n := by
  have hmask : w &&& 0xFFFFFFFC = 0x0A000000 ↔ w.extractLsb' 2 30 = 0x02800000#30 :=
    and_mask_eq_iff (m := 30) (n := 2) (v := w) (x := 0x02800000#30)
  rw [decode_eq_ok_iff, encode_gfmt, hmask]
  exact and_congr (by simp [Instr.wellFormed]) (append_eq_iff (m := 30))

theorem decode_gfmt_iff :
    (∃ n, decode w = .ok (.gfmt n)) ↔ w &&& 0xFFFFFFFC = 0x0A000000 ∧ w.extractLsb' 0 2 ≠ 0 := by
  simp only [decode_gfmt_eq_ok_iff]
  constructor
  · rintro ⟨n, hn, hw, rfl⟩
    exact ⟨hw, hn⟩
  · rintro ⟨hw, hn⟩
    exact ⟨_, hn, hw, rfl⟩

/-- Where the operands of format L lie (R77). -/
theorem laneOperands_of_decode {a : Alphabet} {l : Lane}
    (h : decode w = .ok (.symat a l) ∨ decode w = .ok (.idxof a l)) :
    w.getLsbD 2 = decide (a = .padding) ∧ w.extractLsb' 0 2 = laneBits l := by
  rcases h with h | h <;> obtain ⟨-, rfl⟩ := encode_of_decode h
  · cases a <;> cases l <;> exact ⟨rfl, rfl⟩
  · cases a <;> cases l <;> exact ⟨rfl, rfl⟩

theorem getLsbD_zero_of_decode_gval {f : Bool} (h : decode w = .ok (.gval f)) : f = w.getLsbD 0 := by
  obtain ⟨-, rfl⟩ := encode_of_decode h
  cases f <;> rfl

/-! ### Illegal words -/

theorem rejected_iff : Rejected w ↔ zeroField w ≠ 0 ∨ ∃ e, decodeOpcode (opcodeField w) (argField w) = .error e := by
  unfold Rejected decode
  split_ifs <;> simp_all

/-- The grounds of R79 on the opcode and the argument byte. -/
def IllegalFields (opc arg : BitVec 8) : Prop :=
  opc ∉ assignedOpcodes ∨ (opc ∈ plainOpcodes ∧ arg ≠ 0) ∨
  (opc ∈ ([0x08, 0x09] : List (BitVec 8)) ∧ arg.extractLsb' 3 5 ≠ 0) ∨
  (opc = 0x0A ∧ arg.extractLsb' 2 6 ≠ 0) ∨ (opc = 0x0B ∧ arg.extractLsb' 1 7 ≠ 0) ∨
  (opc = 0x0A ∧ arg.extractLsb' 0 2 = 0)

theorem illegalWord_iff : IllegalWord w ↔ zeroField w ≠ 0 ∨ IllegalFields (opcodeField w) (argField w) := by
  unfold IllegalFields
  rw [argField_extractLsb' w (by decide), argField_extractLsb' w (by decide), argField_extractLsb' w (by decide),
    argField_extractLsb' w (by decide), or_left_comm]
  rfl

theorem decodeOpcode_eq_error_iff (opc arg : BitVec 8) :
    (∃ e, decodeOpcode opc arg = .error e) ↔ IllegalFields opc arg := by
  unfold IllegalFields
  rcases decodeOpcode_cases opc arg with ⟨hopc, i, hd, -⟩ | ⟨rfl, hd⟩ | ⟨rfl, hd⟩ | ⟨rfl, hd⟩ | ⟨rfl, hd⟩ |
    ⟨hopc, hd⟩ <;> rw [hd]
  · have hplain : ∀ o ∈ plainOpcodes, o ∈ assignedOpcodes ∧ o ≠ 0x08#8 ∧ o ≠ 0x09#8 ∧ o ≠ 0x0A#8 ∧ o ≠ 0x0B#8 := by
      decide
    simp [decodeZ_eq_error_iff, hopc, hplain opc hopc]
  · simp [decodeL_eq_error_iff, assignedOpcodes, plainOpcodes]
  · simp [decodeL_eq_error_iff, assignedOpcodes, plainOpcodes]
  · simp [decodeN_eq_error_iff, assignedOpcodes, plainOpcodes]
  · simp [decodeF_eq_error_iff, assignedOpcodes, plainOpcodes]
  · simp [hopc]

theorem rejected_iff_illegalWord : Rejected w ↔ IllegalWord w := by
  rw [rejected_iff, illegalWord_iff, decodeOpcode_eq_error_iff]

/-! ### Lines of a host program -/

/-- A step that answers a next state is the first of a run. -/
theorem run_succ_of_step {s t : State} (n : Nat) (h : step s = .next t) : run (n + 1) s = run n t := by
  rw [run, h]

/-- The lines of a host program and the port agree on where a register is (R58). -/
theorem regAt_offset (r : PortReg) : regAt r.offset = some r := by
  cases r with
  | symbol l => cases l <;> rfl
  | cmd | status | breg | sreg | ilen | olen => rfl

/-- A register other than CMD is written by its line (R81). -/
theorem step_wr {r : PortReg} {v : Word} (hcmd : r ≠ .cmd)
    (hp : s.pending = BasicLine.event s.config (.wr r v) :: rest) :
    step s = .next (regWrite r v { s with pending := rest }) :=
  step_writeReg (regAt_offset r) hcmd hp

/-- `WRI` writes its unit (R81). -/
theorem step_wri {i : Nat} {u : Byte} (hi : i < s.config.ibufCap)
    (hp : s.pending = BasicLine.event s.config (.wri i u) :: rest) :
    step s = .next { s with pending := rest, ibuf := s.ibuf.write i u } := by
  rw [step_write (portTarget_ibufBase_add hi) rfl nofun hp]
  simp [portWrite, BitVec.extractLsb'_setWidth_of_le]

/-! ### Units in a row -/

/-- The buffer after `us` have been written one after the other from index `i` on. -/
def Memory.writeUnits (m : Memory) : Nat → List Byte → Memory
  | _, [] => m
  | i, u :: us => (m.write i u).writeUnits (i + 1) us

theorem Memory.read_writeUnits (m : Memory) (i : Nat) (us : List Byte) (k : Nat) :
    (m.writeUnits i us).read k = if i ≤ k ∧ k < i + us.length then us[k - i]? else m.read k := by
  induction us generalizing m i with
  | nil => simp [Memory.writeUnits]
  | cons u us ih =>
    rw [Memory.writeUnits, ih, List.length_cons]
    rcases Nat.lt_trichotomy i k with h | rfl | h
    · rw [Memory.read_write_other _ _ h.ne', show k - i = (k - (i + 1)) + 1 by omega, List.getElem?_cons_succ]
      exact if_congr (by omega) rfl rfl
    · rw [if_neg (by omega), if_pos (by omega), Memory.read_write_same, Nat.sub_self, List.getElem?_cons_zero]
    · rw [if_neg (by omega), if_neg (by omega), Memory.read_write_other _ _ h.ne]

/-- The `WRI` lines of units that fit take one step each (R82). -/
theorem run_storeUnits {i : Nat} {us : List Byte} (n : Nat) (hi : i + us.length ≤ s.config.ibufCap)
    (hp : s.pending = (storeUnits i us).map (BasicLine.event s.config) ++ rest) :
    run (us.length + n) s = run n { s with pending := rest, ibuf := s.ibuf.writeUnits i us } := by
  induction us generalizing s i with
  | nil =>
    obtain rfl : s.pending = rest := hp
    rw [List.length_nil, Nat.zero_add]
    rfl
  | cons u us ih =>
    rw [List.length_cons] at hi ⊢
    rw [Nat.succ_add, run_succ_of_step _ (step_wri (by omega) hp), ih (by dsimp only; omega) rfl]
    rfl

theorem run_ldi {us : List Byte} (h : us.length ≤ s.config.ibufCap) :
    run (us.length + 1) (s.withProgram [.ldi us]) =
      .next { s with ibuf := s.ibuf.writeUnits 0 us, ilen := BitVec.ofNat 32 us.length } := by
  have hp : (s.withProgram [.ldi us]).pending = (storeUnits 0 us).map (BasicLine.event s.config) ++
      (BasicLine.event s.config (.wr .ilen (BitVec.ofNat 32 us.length)) :: s.pending) := by
    simp [State.withProgram, programEvents, HostLine.expand, expandLdi]
  rw [run_storeUnits (s := s.withProgram [.ldi us]) 1 (by simpa [State.withProgram] using h) hp,
    run_succ_of_step 0 (step_wr (r := .ilen) nofun rfl)]
  rfl

/-- Every length that fits IBUF fits ILEN (R8, D5). -/
theorem ibufCap_lt_two_pow (c : Config) : c.ibufCap < 2 ^ 32 := by
  obtain ⟨-, -, -, -, hcap, hobuf, -⟩ := c.admitted
  omega

/-! ### Lane views from their operands -/

/-- The bytes of an assembly are those it was made of (R110, R112). -/
theorem bytesOf_asm24 (b0 b1 b2 : Byte) : bytesOf (asm24 b0 b1 b2) = ⟨b0, b1, b2⟩ := by
  have hlow (k : Nat) (hk : 8 ≤ k) : (asm24 b0 b1 b2).extractLsb' k 8 = (b0 ++ b1).extractLsb' (k - 8) 8 :=
    BitVec.extractLsb'_append_eq_of_le hk
  rw [bytesOf, hlow 16 (by decide), hlow 8 (by decide)]
  congr 1
  · exact BitVec.extractLsb'_append_eq_left
  · exact BitVec.extractLsb'_append_eq_right
  · exact BitVec.extractLsb'_append_eq_right (a := b0 ++ b1)

/-- The sextets of an assembly are those it was made of (R111, R112). -/
theorem sextetsOf_joinSextets (s0 s1 s2 s3 : Sextet) : sextetsOf (joinSextets s0 s1 s2 s3) = ⟨s0, s1, s2, s3⟩ := by
  have hlow (k : Nat) (hk : 6 ≤ k) :
      (joinSextets s0 s1 s2 s3).extractLsb' k 6 = (s0 ++ s1 ++ s2).extractLsb' (k - 6) 6 :=
    BitVec.extractLsb'_append_eq_of_le hk
  have hmid (k : Nat) (hk : 6 ≤ k) : (s0 ++ s1 ++ s2).extractLsb' k 6 = (s0 ++ s1).extractLsb' (k - 6) 6 :=
    BitVec.extractLsb'_append_eq_of_le hk
  rw [sextetsOf, hlow 18 (by decide), hlow 12 (by decide), hlow 6 (by decide), hmid _ (by decide), hmid _ (by decide)]
  congr 1
  · exact BitVec.extractLsb'_append_eq_left
  · exact BitVec.extractLsb'_append_eq_right
  · exact BitVec.extractLsb'_append_eq_right (a := s0 ++ s1)
  · exact BitVec.extractLsb'_append_eq_right (a := s0 ++ s1 ++ s2)

theorem regWrite_breg (v : BitVec 24) (s : State) : regWrite .breg (v.setWidth 32) s = s.setBytes true (bytesOf v) := by
  simp [regWrite, bytesOf, BitVec.extractLsb'_setWidth_of_le]

theorem regWrite_sreg (v : BitVec 24) (s : State) :
    regWrite .sreg (v.setWidth 32) s = s.setSextets true (sextetsOf v) := by
  simp [regWrite, sextetsOf, BitVec.extractLsb'_setWidth_of_le]

/-- The fields of a lane view's word are the operands it was made of (R27, R28, R29, R82). -/
theorem regWrite_ldb (b0 b1 b2 : Byte) (s : State) :
    regWrite .breg ((b0.setWidth 32 <<< 16) ||| (b1.setWidth 32 <<< 8) ||| b2.setWidth 32) s =
      s.setBytes true ⟨b0, b1, b2⟩ := by
  have hv : (b0.setWidth 32 <<< 16) ||| (b1.setWidth 32 <<< 8) ||| b2.setWidth 32 = (asm24 b0 b1 b2).setWidth 32 := by
    rw [asm24, BitVec.setWidth_append_append_eq_shiftLeft_setWidth_or]
  rw [hv, regWrite_breg, bytesOf_asm24]

theorem regWrite_lds (s0 s1 s2 s3 : Sextet) (s : State) :
    regWrite .sreg ((s0.setWidth 32 <<< 18) ||| (s1.setWidth 32 <<< 12) ||| (s2.setWidth 32 <<< 6) ||| s3.setWidth 32) s =
      s.setSextets true ⟨s0, s1, s2, s3⟩ := by
  have hv : (s0.setWidth 32 <<< 18) ||| (s1.setWidth 32 <<< 12) ||| (s2.setWidth 32 <<< 6) ||| s3.setWidth 32 =
      (joinSextets s0 s1 s2 s3).setWidth 32 := by
    rw [joinSextets, BitVec.setWidth_append_append_append_eq_shiftLeft_setWidth_or]
  rw [hv, regWrite_sreg, sextetsOf_joinSextets]

theorem regWrite_ldy (l : Lane) (y : Symbol) (s : State) :
    regWrite (.symbol l) (y.setWidth 32) s = s.setSymbol l true y := by
  simp [regWrite, BitVec.extractLsb'_setWidth_of_le]

/-! ### The obligations -/

/-- Settles O2: `decode_eq_ok_iff`. -/
theorem decodeExactlyInvertsEncode : Obligations.DecodeExactlyInvertsEncode := fun _ _ => decode_eq_ok_iff

/-- Settles O3, row by row. -/
theorem matchAndMaskSelectCommand : Obligations.MatchAndMaskSelectCommand := by
  intro w
  refine ⟨decode_plain_iff rfl, decode_plain_iff rfl, decode_plain_iff rfl, decode_plain_iff rfl, decode_plain_iff rfl,
    decode_plain_iff rfl, decode_symat_iff, decode_idxof_iff, decode_gfmt_iff, decode_gval_iff, decode_plain_iff rfl,
    decode_plain_iff rfl, fun a l h => ?_, fun n h => ?_, fun f h => getLsbD_zero_of_decode_gval h⟩
  · obtain ⟨ha, hl⟩ := laneOperands_of_decode h
    rw [ha, hl]
    exact ⟨by cases a <;> decide, by cases a <;> decide, laneBits_eq_iff l⟩
  · obtain ⟨-, -, hn⟩ := decode_gfmt_eq_ok_iff.1 h
    exact hn.symm

/-- Settles O4: `rejected_iff_illegalWord`, and the step on an illegal word. -/
theorem illegalWordsReportedOnly : Obligations.IllegalWordsReportedOnly := by
  intro w
  refine ⟨rejected_iff_illegalWord, fun s rest hp hw => ?_⟩
  obtain ⟨r, hr⟩ := rejected_iff_illegalWord.2 hw
  exact step_illegal hr hp

/-- Settles O58, by `run_ldi`; `LDSYM` has the same lines as the `LDI` of its text. -/
theorem loadInputFillsBuffer : Obligations.LoadInputFillsBuffer := by
  intro s us h
  refine ⟨⟨_, run_ldi h, rfl, ?_, fun k hk => ?_, fun k hk => ?_⟩, ?_⟩
  · have hlt := ibufCap_lt_two_pow s.config
    rw [BitVec.toNat_ofNat]
    exact Nat.mod_eq_of_lt (by omega)
  · simp [Memory.read_writeUnits, hk]
  · simp [Memory.read_writeUnits, hk]
  · rintro ys rfl
    rfl

/-- Settles O1: `decode` evaluated at each word. -/
theorem exampleWordsDecode : Obligations.ExampleWordsDecode := by
  refine ⟨rfl, rfl, rfl, rfl, rfl, rfl, rfl, rfl, rfl, rfl, rfl, ?_⟩
  exact ⟨⟨_, rfl⟩, ⟨_, rfl⟩, ⟨_, rfl⟩, ⟨_, rfl⟩, ⟨_, rfl⟩, ⟨_, rfl⟩, ⟨_, rfl⟩⟩

/-- Settles O26: `exec_gfmt_zero`. -/
theorem gfmtZeroActsAsIllegalWord : Obligations.GfmtZeroActsAsIllegalWord := exec_gfmt_zero

/-- Settles O57, line by line: a load line is a write of its register, whose fields are the operands. -/
theorem loadLinesSetLanes : Obligations.LoadLinesSetLanes := by
  intro s
  refine ⟨fun b0 b1 b2 => ?_, fun s0 s1 s2 s3 => ?_, fun y0 y1 y2 y3 => ?_⟩
  · rw [step_wr (r := .breg) (rest := s.pending) nofun rfl, regWrite_ldb]
    rfl
  · rw [step_wr (r := .sreg) (rest := s.pending) nofun rfl, regWrite_lds]
    rfl
  · rw [run_succ_of_step 3 (step_wr (r := .symbol .l0) nofun rfl), regWrite_ldy,
      run_succ_of_step 2 (step_wr (r := .symbol .l1) nofun rfl), regWrite_ldy,
      run_succ_of_step 1 (step_wr (r := .symbol .l2) nofun rfl), regWrite_ldy,
      run_succ_of_step 0 (step_wr (r := .symbol .l3) nofun rfl), regWrite_ldy]
    rfl

end Sys2Proof.Machine

/-! ## Alphabets

The two lookups invert each other (O18), membership and the disjointness of the two tables (O19), and SYMAT and IDXOF over
a source with a defined value (O16, O17). -/

namespace Sys2Proof

variable {c : Config} {a b : Alphabet} {i : Sextet} {y : Symbol}

/-! ### The lookups -/

/-- Where the entries of a list are pairwise different, the first match is the only one. -/
theorem idxOf?_eq_some_iff_of_nodup {α : Type} [BEq α] [LawfulBEq α] {l : List α} (hl : l.Nodup) {x : α} {n : Nat} :
    l.idxOf? x = some n ↔ l[n]? = some x := by
  rw [List.idxOf?_eq_some_iff, List.getElem?_eq_some_iff]
  constructor
  · rintro ⟨hn, hx, -⟩
    exact ⟨hn, hx⟩
  · rintro ⟨hn, hx⟩
    exact ⟨hn, hx, fun m hm hmx => hm.ne (hl.getElem_inj_iff.1 (hmx.trans hx.symm))⟩

/-- `indexOf` answers the one index at which `symbolAt` answers the symbol (R101). -/
theorem Config.indexOf_eq_some_iff : c.indexOf a y = some i ↔ c.symbolAt a i = some y := by
  simp only [Config.indexOf, Config.symbolAt, Option.map_eq_some_iff, idxOf?_eq_some_iff_of_nodup (c.table_nodup a)]
  constructor
  · rintro ⟨n, hn, rfl⟩
    have hlt : n < (c.table a).length := (List.getElem?_eq_some_iff.1 hn).1
    have hnat : (BitVec.ofNat 6 n).toNat = n := Nat.mod_eq_of_lt (hlt.trans_le (c.table_length_le a))
    rwa [hnat]
  · intro h
    exact ⟨i.toNat, h, by rw [BitVec.ofNat_toNat, BitVec.setWidth_eq]⟩

/-- `symbolAt` answers entries of its table only (R100). -/
theorem Config.mem_table_of_symbolAt (h : c.symbolAt a i = some y) : y ∈ c.table a := List.mem_of_getElem? h

/-! ### Membership -/

/-- No code is in both alphabets (R9). -/
theorem Config.alphaD_disjoint_alphaP (c : Config) : c.alphaD.Disjoint c.alphaP := by
  obtain ⟨-, -, hnodup, -⟩ := c.admitted
  exact List.disjoint_of_nodup_append hnodup

theorem Config.table_disjoint (c : Config) (hab : a ≠ b) : (c.table a).Disjoint (c.table b) := by
  cases a <;> cases b
  · exact absurd rfl hab
  · exact c.alphaD_disjoint_alphaP
  · exact c.alphaD_disjoint_alphaP.symm
  · exact absurd rfl hab

/-- A symbol of one alphabet is not found in the other (R101). -/
theorem Config.indexOf_eq_none_of_symbolAt (hab : a ≠ b) (h : c.symbolAt a i = some y) : c.indexOf b y = none :=
  (c.indexOf_eq_none b y).2 (c.table_disjoint hab (Config.mem_table_of_symbolAt h))

theorem Config.isSome_indexOf : (c.indexOf a y).isSome = true ↔ y ∈ c.table a := by
  rw [Config.indexOf, Option.isSome_map, List.isSome_idxOf?]

theorem Config.isData_iff : c.isData y = true ↔ y ∈ c.alphaD := Config.isSome_indexOf

theorem Config.isPad_iff : c.isPad y = true ↔ y ∈ c.alphaP := Config.isSome_indexOf

end Sys2Proof

namespace Sys2Proof.Machine

variable {s : State} {a : Alphabet} {l : Lane}

/-! ### SYMAT and IDXOF over a defined source -/

theorem exec_symat_found {y : Symbol} (hw : sourcesWritten (.symat a l) s = true)
    (hy : s.config.symbolAt a (s.sextets.get l).value = some y) : exec (.symat a l) s = .next
      { s with symbols := s.symbols.set l ⟨y, true⟩, err := 0, cnt := 0, statusWritten := true } := by
  rw [exec_symat_of_some hy, hw]
  rfl

theorem exec_symat_indexRange (hw : sourcesWritten (.symat a l) s = true)
    (hy : s.config.symbolAt a (s.sextets.get l).value = none) :
    exec (.symat a l) s = .next { s with err := 6, cnt := 0, statusWritten := true } := by
  rw [exec_symat_of_none hy, hw, State.keepSymbol_true]
  rfl

theorem exec_idxof_found {i : Sextet} (hw : sourcesWritten (.idxof a l) s = true)
    (hi : s.config.indexOf a (s.symbols.get l).value = some i) : exec (.idxof a l) s = .next
      { s with sextets := s.sextets.set l ⟨i, true⟩, err := 0, cnt := 0, statusWritten := true } := by
  rw [exec_idxof_of_some hi, hw]
  rfl

theorem exec_idxof_symbolNotFound (hw : sourcesWritten (.idxof a l) s = true)
    (hi : s.config.indexOf a (s.symbols.get l).value = none) :
    exec (.idxof a l) s = .next { s with err := 4, cnt := 0, statusWritten := true } := by
  rw [exec_idxof_of_none hi, hw, State.keepSextet_true]
  rfl

/-! ### The obligations -/

/-- Settles O18, by `Config.indexOf_eq_some_iff` and the disjointness of the tables. -/
theorem indexOfInvertsSymbolAt : Obligations.IndexOfInvertsSymbolAt := by
  intro c
  refine ⟨fun a y i => Config.indexOf_eq_some_iff, fun a y => ?_, fun j y h => ?_, fun i y h => ?_⟩
  · simp only [Option.eq_none_iff_forall_ne_some, ne_eq, Config.indexOf_eq_some_iff]
  · exact Config.indexOf_eq_none_of_symbolAt (by decide) h
  · exact Config.indexOf_eq_none_of_symbolAt (by decide) h

/-- Settles O19: membership is that of the tables, which are disjoint. -/
theorem alphabetsAreDisjoint : Obligations.AlphabetsAreDisjoint := by
  intro c
  refine ⟨fun y => Config.isData_iff, fun y => Config.isPad_iff, fun y h => ?_, fun j hj => ?_⟩
  · obtain ⟨hd, hp⟩ := h
    exact c.alphaD_disjoint_alphaP (Config.isData_iff.1 hd) (Config.isPad_iff.1 hp)
  · obtain ⟨-, hlen, -⟩ := c.admitted
    have hlt : j < c.alphaP.length := hlen ▸ hj
    exact ⟨c.alphaP[j], List.getElem?_eq_getElem hlt, Config.isPad_iff.2 (List.getElem_mem hlt)⟩

/-- Settles O16: every sextet indexes the data table, and those below 8 the padding table. -/
theorem symatLooksUpEntry : Obligations.SymatLooksUpEntry := by
  refine ⟨fun l => by cases l <;> exact ⟨rfl, rfl⟩, fun s l hw => ?_⟩
  obtain ⟨-, hlen, -⟩ := s.config.admitted
  refine ⟨?_, fun hlt => ?_, fun hle => ?_⟩
  · have hy := s.config.alphaD_getElem (s.sextets.get l).value
    exact ⟨_, hy, exec_symat_found hw hy⟩
  · have hy := List.getElem?_eq_getElem (hlen ▸ hlt)
    exact ⟨_, hy, exec_symat_found (a := .padding) hw hy⟩
  · exact exec_symat_indexRange (a := .padding) hw (List.getElem?_eq_none (hlen.trans_le hle))

/-- Settles O17: the entry's index is what `indexOf` answers, and without an entry it fails. -/
theorem idxofFindsIndex : Obligations.IdxofFindsIndex := by
  refine ⟨fun l => by cases l <;> exact ⟨rfl, rfl⟩, fun s a l hw => ⟨fun i hi => ?_, fun hmem => ?_⟩⟩
  · exact exec_idxof_found hw (Config.indexOf_eq_some_iff.2 hi)
  · exact exec_idxof_symbolNotFound hw ((s.config.indexOf_eq_none a _).2 hmem)

end Sys2Proof.Machine

/-! ## Bit packer

The packing functions as the fields their operands are cut at; from them the shift forms (O13), the inverse laws (O14),
the six commands over defined sources (O7 to O12) and the lanes the partial ones ignore (O15). -/

namespace Sys2Proof.Machine

/-! ### Fields as masks and shifts -/

section Fields

variable {m n v w k : Nat}

/-- The low `n` bits, seen as `k`, are what a mask of ones leaves. -/
theorem setWidth_extractLsb'_low (x : BitVec w) :
    (x.extractLsb' 0 n).setWidth k = x.setWidth k &&& (BitVec.allOnes n).setWidth k := by
  ext i hi
  simp [Bool.and_comm]

/-- The bits from `n` up, seen as `k`, are what a right shift leaves. -/
theorem setWidth_extractLsb'_high (x : BitVec w) (hw : w ≤ k) :
    (x.extractLsb' n (w - n)).setWidth k = x.setWidth k >>> n := by
  ext i hi
  rcases Nat.lt_or_ge (n + i) w with h | h
  · simp [show i < w - n by omega, show n + i < k by omega]
  · simp [BitVec.getLsbD_of_ge x _ h]

/-- The low bits of `x` in front of the high bits of `y`, seen as `k`: a mask shifted left, a right shift below it. -/
theorem setWidth_low_append_high (x : BitVec v) (y : BitVec w) (hw : w ≤ k) :
    (x.extractLsb' 0 m ++ y.extractLsb' n (w - n)).setWidth k =
      ((x.setWidth k &&& (BitVec.allOnes m).setWidth k) <<< (w - n)) ||| (y.setWidth k >>> n) := by
  rw [BitVec.setWidth_append_eq_shiftLeft_setWidth_or, setWidth_extractLsb'_low, setWidth_extractLsb'_high y hw]

/-- A mask of leading ones clears the low field. -/
theorem and_leading_mask (x : BitVec (m + n)) :
    x &&& (BitVec.allOnes m ++ 0#n) = x.extractLsb' n m ++ 0#n := and_mask_eq_iff.2 rfl

end Fields

/-- The two high bits of a sextet. -/
theorem and_0x30 (x : Sextet) : x &&& 0x30 = x.extractLsb' 4 2 ++ 0#4 := and_leading_mask (m := 2) (n := 4) x

/-- The four high bits of a sextet. -/
theorem and_0x3C (x : Sextet) : x &&& 0x3C = x.extractLsb' 2 4 ++ 0#2 := and_leading_mask (m := 4) (n := 2) x

theorem and_0x30_eq_self_iff (x : Sextet) : x &&& 0x30 = x ↔ x.extractLsb' 0 4 = 0 := by
  rw [and_0x30, append_eq_iff, eq_self, true_and, BitVec.ofNat_eq_ofNat]

theorem and_0x3C_eq_self_iff (x : Sextet) : x &&& 0x3C = x ↔ x.extractLsb' 0 2 = 0 := by
  rw [and_0x3C, append_eq_iff, eq_self, true_and, BitVec.ofNat_eq_ofNat]

/-! ### The two assemblies -/

/-- The sextets of a 24-bit value make it up (R111, R112). -/
theorem joinSextets_sextetsOf (v : BitVec 24) :
    joinSextets (sextetsOf v).l0 (sextetsOf v).l1 (sextetsOf v).l2 (sextetsOf v).l3 = v := by
  simp only [joinSextets, sextetsOf]
  rw [BitVec.extractLsb'_append_extractLsb'_eq_extractLsb' (show 18 = 12 + 6 from rfl),
    BitVec.extractLsb'_append_extractLsb'_eq_extractLsb' (show 12 = 6 + 6 from rfl)]
  exact BitVec.extractLsb'_append_extractLsb'

/-- The bytes of a 24-bit value make it up (R110, R112). -/
theorem asm24_bytesOf (v : BitVec 24) : asm24 (bytesOf v).l0 (bytesOf v).l1 (bytesOf v).l2 = v := by
  simp only [asm24, bytesOf]
  rw [BitVec.extractLsb'_append_extractLsb'_eq_extractLsb' (show 16 = 8 + 8 from rfl)]
  exact BitVec.extractLsb'_append_extractLsb'

/-- BREG shows the assembly of the byte lanes (R27). -/
theorem bregWord_eq (b : Triple (LaneReg 8)) :
    bregWord b = 0#8 ++ asm24 b.l0.value b.l1.value b.l2.value := by
  rw [asm24, BitVec.append_assoc', BitVec.append_assoc']
  rfl

/-- SREG shows the assembly of the sextet lanes (R28). -/
theorem sregWord_eq (t : Quad (LaneReg 6)) :
    sregWord t = 0#8 ++ joinSextets t.l0.value t.l1.value t.l2.value t.l3.value := by
  rw [joinSextets, BitVec.append_assoc', BitVec.append_assoc', BitVec.append_assoc']
  rfl

/-! ### The packing functions field by field -/

/-- Where `pack3` cuts the bytes (R111); each bit of a lane lies in one field. -/
theorem pack3_eq (b0 b1 b2 : Byte) : pack3 b0 b1 b2 = ⟨b0.extractLsb' 2 6, b0.extractLsb' 0 2 ++ b1.extractLsb' 4 4,
    b1.extractLsb' 0 4 ++ b2.extractLsb' 6 2, b2.extractLsb' 0 6⟩ := by
  rw [pack3, sextetsOf]
  congr 1
  all_goals
    ext i hi
    simp only [BitVec.getElem_extractLsb', asm24_getLsbD]
    grind

/-- Where `unpack4` cuts the sextets (R112); each bit of a lane lies in one field. -/
theorem unpack4_eq (s0 s1 s2 s3 : Sextet) : unpack4 s0 s1 s2 s3 = ⟨s0 ++ s1.extractLsb' 4 2,
    s1.extractLsb' 0 4 ++ s2.extractLsb' 2 4, s2.extractLsb' 0 2 ++ s3⟩ := by
  rw [unpack4, bytesOf]
  congr 1
  all_goals
    ext i hi
    simp only [BitVec.getElem_extractLsb', joinSextets_getLsbD]
    grind

theorem pack1_eq (b0 : Byte) : pack1 b0 = (b0.extractLsb' 2 6, b0.extractLsb' 0 2 ++ 0#4) := by
  rw [pack1, pack3_eq]
  rfl

theorem pack2_eq (b0 b1 : Byte) : pack2 b0 b1 =
    (b0.extractLsb' 2 6, b0.extractLsb' 0 2 ++ b1.extractLsb' 4 4, b1.extractLsb' 0 4 ++ 0#2) := by
  rw [pack2, pack3_eq]
  rfl

theorem unpack2_eq (s0 s1 : Sextet) : unpack2 s0 s1 = s0 ++ s1.extractLsb' 4 2 := by
  rw [unpack2, unpack4_eq]

theorem unpack3_eq (s0 s1 s2 : Sextet) : unpack3 s0 s1 s2 =
    (s0 ++ s1.extractLsb' 4 2, s1.extractLsb' 0 4 ++ s2.extractLsb' 2 4) := by
  rw [unpack3, unpack4_eq]

/-- `unpack2` drops the low four bits of its second sextet (R115). -/
theorem unpack2_and_0x30 (s0 s1 : Sextet) : unpack2 s0 (s1 &&& 0x30) = unpack2 s0 s1 := by
  rw [unpack2_eq, and_0x30, BitVec.extractLsb'_append_eq_left, unpack2_eq]

/-- `unpack3` drops the low two bits of its third sextet (R116). -/
theorem unpack3_and_0x3C (s0 s1 s2 : Sextet) : unpack3 s0 s1 (s2 &&& 0x3C) = unpack3 s0 s1 s2 := by
  rw [unpack3_eq, and_0x3C, BitVec.extractLsb'_append_eq_left, unpack3_eq]

/-! ### The inverse laws (R117) -/

/-- R117 (a). -/
theorem unpack4_pack3 (b0 b1 b2 : Byte) :
    unpack4 (pack3 b0 b1 b2).l0 (pack3 b0 b1 b2).l1 (pack3 b0 b1 b2).l2 (pack3 b0 b1 b2).l3 = ⟨b0, b1, b2⟩ := by
  rw [unpack4, pack3, joinSextets_sextetsOf, bytesOf_asm24]

/-- R117 (b). -/
theorem pack3_unpack4 (s0 s1 s2 s3 : Sextet) :
    pack3 (unpack4 s0 s1 s2 s3).l0 (unpack4 s0 s1 s2 s3).l1 (unpack4 s0 s1 s2 s3).l2 = ⟨s0, s1, s2, s3⟩ := by
  rw [pack3, unpack4, asm24_bytesOf, sextetsOf_joinSextets]

/-- R117 (c). -/
theorem unpack2_pack1 (b0 : Byte) : unpack2 (pack1 b0).1 (pack1 b0).2 = b0 := by
  rw [pack1_eq, unpack2_eq, BitVec.extractLsb'_append_eq_left]
  exact BitVec.extractLsb'_append_extractLsb'

/-- R117 (d). -/
theorem unpack3_pack2 (b0 b1 : Byte) :
    unpack3 (pack2 b0 b1).1 (pack2 b0 b1).2.1 (pack2 b0 b1).2.2 = (b0, b1) := by
  rw [pack2_eq, unpack3_eq, BitVec.extractLsb'_append_eq_left, BitVec.extractLsb'_append_eq_left,
    BitVec.extractLsb'_append_eq_right]
  exact congrArg₂ Prod.mk BitVec.extractLsb'_append_extractLsb' BitVec.extractLsb'_append_extractLsb'

/-- R117 (e). -/
theorem pack1_unpack2 (s0 s1 : Sextet) : pack1 (unpack2 s0 s1) = (s0, s1 &&& 0x30) := by
  rw [pack1_eq, unpack2_eq, BitVec.extractLsb'_append_eq_left, BitVec.extractLsb'_append_eq_right, and_0x30]

/-- R117 (f). -/
theorem pack2_unpack3 (s0 s1 s2 : Sextet) :
    pack2 (unpack3 s0 s1 s2).1 (unpack3 s0 s1 s2).2 = (s0, s1, s2 &&& 0x3C) := by
  have h1 : s1.extractLsb' 4 2 ++ s1.extractLsb' 0 4 = s1 := BitVec.extractLsb'_append_extractLsb'
  rw [pack2_eq, unpack3_eq, BitVec.extractLsb'_append_eq_left, BitVec.extractLsb'_append_eq_left,
    BitVec.extractLsb'_append_eq_right, BitVec.extractLsb'_append_eq_right, h1, and_0x3C]

/-! ### The obligations -/

/-- Settles O11: masking the low bits of the last sextet does not change what `unpack3` gives. -/
theorem unpk3DropsLowBits : Obligations.Unpk3DropsLowBits := by
  refine ⟨rfl, fun s hw => ?_⟩
  rw [exec_unpk3, hw, ← unpack3_and_0x3C]
  rfl

/-- Settles O12: masking the low bits of the last sextet does not change what `unpack2` gives. -/
theorem unpk2DropsLowBits : Obligations.Unpk2DropsLowBits := by
  refine ⟨rfl, fun s hw => ?_⟩
  rw [exec_unpk2, hw, ← unpack2_and_0x30]
  rfl

/-- Settles O13, lane by lane: a low field in front is masked and shifted left, a high field behind is shifted right. -/
theorem shiftFormsOfPackAndUnpack : Obligations.ShiftFormsOfPackAndUnpack := by
  refine ⟨fun b0 b1 b2 => ⟨rfl, ?_, ?_, ?_, ?_⟩, fun s0 s1 s2 s3 => ⟨rfl, ?_, ?_, ?_⟩⟩
  · rw [pack3_eq]
    exact setWidth_extractLsb'_high b0 le_rfl
  · rw [pack3_eq]
    exact setWidth_low_append_high (n := 4) b0 b1 le_rfl
  · rw [pack3_eq]
    exact setWidth_low_append_high (n := 6) b1 b2 le_rfl
  · rw [pack3_eq]
    exact setWidth_extractLsb'_low b2
  · rw [unpack4_eq, ← BitVec.setWidth_eq (s0 ++ _), BitVec.setWidth_append_eq_shiftLeft_setWidth_or,
      setWidth_extractLsb'_high s1 (by decide)]
  · rw [unpack4_eq, ← BitVec.setWidth_eq (s1.extractLsb' 0 4 ++ _), setWidth_low_append_high s1 s2 (by decide)]
    rfl
  · rw [unpack4_eq, ← BitVec.setWidth_eq (_ ++ s3), BitVec.setWidth_append_eq_shiftLeft_setWidth_or,
      setWidth_extractLsb'_low]
    rfl

/-- Settles O14: the laws (a) to (f); (e) and (f) are the identity where the mask is. -/
theorem packAndUnpackInverseLaws : Obligations.PackAndUnpackInverseLaws := by
  refine ⟨unpack4_pack3, pack3_unpack4, unpack2_pack1, unpack3_pack2, fun s0 s1 => ⟨pack1_unpack2 s0 s1, ?_⟩,
    fun s0 s1 s2 => ⟨pack2_unpack3 s0 s1 s2, ?_⟩⟩
  · rw [pack1_unpack2, Prod.mk_right_inj, and_0x30_eq_self_iff]
  · rw [pack2_unpack3, Prod.mk_right_inj, Prod.mk_right_inj, and_0x3C_eq_self_iff]

/-- Settles O7; the assembly of the sextets cut is the one they were cut from. -/
theorem pack3CutsTriplet : Obligations.Pack3CutsTriplet := by
  refine ⟨rfl, fun s hw => ⟨_, exec_pack3 s, by rw [hw]; rfl, ?_⟩⟩
  rw [sregWord_eq, bregWord_eq]
  exact congrArg _ (joinSextets_sextetsOf _)

/-- Settles O8; the low two bits of `S2` are those of the zero byte. -/
theorem pack2ZeroExtends : Obligations.Pack2ZeroExtends := by
  refine ⟨rfl, fun s hw => ⟨_, exec_pack2 s, by rw [hw]; rfl, ?_⟩⟩
  rw [pack2_eq]
  exact BitVec.extractLsb'_append_eq_right

/-- Settles O9; `S2` and the low four bits of `S1` are those of the zero bytes. -/
theorem pack1ZeroExtends : Obligations.Pack1ZeroExtends := by
  refine ⟨rfl, fun s hw => ⟨_, exec_pack1 s, by rw [hw]; rfl, ?_⟩⟩
  rw [pack1_eq]
  exact BitVec.extractLsb'_append_eq_right

/-- Settles O10; the assembly of the bytes cut is the one they were cut from. -/
theorem unpk4CutsQuadruplet : Obligations.Unpk4CutsQuadruplet := by
  refine ⟨rfl, fun s hw => ⟨_, exec_unpk4 s, by rw [hw]; rfl, ?_⟩⟩
  rw [bregWord_eq, sregWord_eq]
  exact congrArg _ (asm24_bytesOf _)

/-- Settles O15: no equation of a partial command names the lanes it ignores. -/
theorem partialCommandsIgnoreLanes : Obligations.PartialCommandsIgnoreLanes := by
  refine fun s x y u v => ⟨fun hw => ?_, fun hw => ?_, fun hw => ?_, fun hw => ?_⟩
  · exact ⟨_, exec_pack1 s, by rw [hw]; rfl, by rw [hw]; rfl, exec_pack1 _⟩
  · exact ⟨_, exec_pack2 s, by rw [hw]; rfl, exec_pack2 _⟩
  · exact ⟨_, exec_unpk2 s, by rw [hw]; rfl, by rw [hw]; rfl, exec_unpk2 _⟩
  · exact ⟨_, exec_unpk3 s, by rw [hw]; rfl, exec_unpk3 _⟩

end Sys2Proof.Machine

/-! ## Encoder

The forms of `FormatGroup` (O20) and the output group by group: group `g` is the code of the input's triplet `g` (O21,
O23), and all of it is the data symbols of the input's sextets with the padding behind them (O22); from the equations of
GFMT and ENCODE what the two commands leave (O25, O27). -/

namespace Sys2Proof.Machine

variable {s : State}

/-! ### One group -/

theorem formatGroup3_eq (c : Config) (b0 b1 b2 : Byte) :
    formatGroup3 c b0 b1 b2 = [(pack3 b0 b1 b2).l0, (pack3 b0 b1 b2).l1, (pack3 b0 b1 b2).l2,
      (pack3 b0 b1 b2).l3].map c.dataSymbol := rfl

theorem formatGroup2_eq (c : Config) (b0 b1 : Byte) :
    formatGroup2 c b0 b1 = [(pack2 b0 b1).1, (pack2 b0 b1).2.1, (pack2 b0 b1).2.2].map c.dataSymbol ++
      List.replicate 1 c.padSymbol := rfl

theorem formatGroup1_eq (c : Config) (b0 : Byte) :
    formatGroup1 c b0 = [(pack1 b0).1, (pack1 b0).2].map c.dataSymbol ++ List.replicate 2 c.padSymbol := rfl

/-! ### Groups of the output and triplets of the input -/

section Groups

variable (c : Config) (x : List Byte)

/-- Without its first group the output is the code of the input without its first triplet. -/
theorem drop_encodeBytes_four : (encodeBytes c x).drop 4 = encodeBytes c (x.drop 3) := by
  cases x using encodeBytes.induct with
  | case1 | case2 b0 | case3 b0 b1 | case4 b0 b1 b2 x => rfl

/-- The first group of the output is the code of the input's first triplet. -/
theorem take_encodeBytes_four : (encodeBytes c x).take 4 = encodeBytes c (x.take 3) := by
  cases x using encodeBytes.induct with
  | case1 | case2 b0 | case3 b0 b1 | case4 b0 b1 b2 x => rfl

theorem drop_encodeBytes (g : Nat) : (encodeBytes c x).drop (4 * g) = encodeBytes c (x.drop (3 * g)) := by
  induction g with
  | zero => rfl
  | succ g ih =>
    calc (encodeBytes c x).drop (4 * (g + 1))
      _ = ((encodeBytes c x).drop (4 * g)).drop 4 := List.drop_drop.symm
      _ = encodeBytes c ((x.drop (3 * g)).drop 3) := by rw [ih, drop_encodeBytes_four]
      _ = encodeBytes c (x.drop (3 * (g + 1))) := congrArg _ List.drop_drop

/-- Group `g` of the output is the code of triplet `g` of the input (R136). -/
theorem encodeBytes_group (g : Nat) :
    ((encodeBytes c x).drop (4 * g)).take 4 = encodeBytes c ((x.drop (3 * g)).take 3) := by
  rw [drop_encodeBytes, take_encodeBytes_four]

theorem getElem?_encodeBytes (g : Nat) {j : Nat} (hj : j < 4) :
    (encodeBytes c x)[4 * g + j]? = (encodeBytes c ((x.drop (3 * g)).take 3))[j]? := by
  rw [← encodeBytes_group, List.getElem?_take_of_lt hj, List.getElem?_drop]

end Groups

/-! ### The sextets of an input -/

/-- The sextets the encoder looks up, in order: four for each triplet, three or two for a remainder (R131, R132). -/
def inputSextets : List Byte → List Sextet
  | [] => []
  | [b0] => [(pack1 b0).1, (pack1 b0).2]
  | [b0, b1] => [(pack2 b0 b1).1, (pack2 b0 b1).2.1, (pack2 b0 b1).2.2]
  | b0 :: b1 :: b2 :: x =>
    [(pack3 b0 b1 b2).l0, (pack3 b0 b1 b2).l1, (pack3 b0 b1 b2).l2, (pack3 b0 b1 b2).l3] ++ inputSextets x

/-- The padding symbols behind the code of `n` bytes (R137). -/
def paddingLength (n : Nat) : Nat := if n % 3 = 0 then 0 else if n % 3 = 1 then 2 else 1

theorem paddingLength_cons_triplet (b0 b1 b2 : Byte) (x : List Byte) :
    paddingLength (b0 :: b1 :: b2 :: x).length = paddingLength x.length := by
  rw [paddingLength, paddingLength, show (b0 :: b1 :: b2 :: x).length = x.length + 3 from rfl, Nat.add_mod_right]

theorem encodeBytes_eq_map_append (c : Config) (x : List Byte) :
    encodeBytes c x = (inputSextets x).map c.dataSymbol ++ List.replicate (paddingLength x.length) c.padSymbol := by
  induction x using encodeBytes.induct with
  | case1 => rfl
  | case2 b0 => exact formatGroup1_eq c b0
  | case3 b0 b1 => exact formatGroup2_eq c b0 b1
  | case4 b0 b1 b2 x ih =>
    rw [encodeBytes, formatGroup3_eq, ih, paddingLength_cons_triplet, inputSextets, List.map_append, List.append_assoc]

theorem inputSextets_length (x : List Byte) :
    (inputSextets x).length + paddingLength x.length = 4 * ((x.length + 2) / 3) := by
  induction x using inputSextets.induct with
  | case1 => rfl
  | case2 b0 | case3 b0 b1 => simp [inputSextets, paddingLength]
  | case4 b0 b1 b2 x ih =>
    rw [inputSextets, List.length_append, paddingLength_cons_triplet]
    simp only [List.length_cons, List.length_nil]
    omega

/-- The bits a partial group adds to its last sextet are those of the missing bytes, zero (R113, R114). -/
theorem getLast?_inputSextets {x : List Byte} (hx : x.length % 3 ≠ 0) :
    ∃ t, (inputSextets x).getLast? = some t ∧ (x.length % 3 = 1 → t.extractLsb' 0 4 = 0) ∧
      (x.length % 3 = 2 → t.extractLsb' 0 2 = 0) := by
  induction x using inputSextets.induct with
  | case1 => exact absurd rfl hx
  | case2 b0 =>
    refine ⟨_, rfl, fun _ => ?_, fun h => absurd h (by decide : ¬ 1 % 3 = 2)⟩
    rw [pack1_eq]
    exact BitVec.extractLsb'_append_eq_right
  | case3 b0 b1 =>
    refine ⟨_, rfl, fun h => absurd h (by decide : ¬ 2 % 3 = 1), fun _ => ?_⟩
    rw [pack2_eq]
    exact BitVec.extractLsb'_append_eq_right
  | case4 b0 b1 b2 x ih =>
    have hl : (b0 :: b1 :: b2 :: x).length % 3 = x.length % 3 := Nat.add_mod_right x.length 3
    rw [hl] at hx ⊢
    obtain ⟨t, ht, hlow⟩ := ih hx
    exact ⟨t, by rw [inputSextets, List.getLast?_append, ht]; rfl, hlow⟩

/-! ### GFMT and the pack command of its size -/

/-- The command that packs as many bytes as GFMT `n` formats. -/
def packOfSize (n : BitVec 2) : Instr := if n = 3 then .pack3 else if n = 2 then .pack2 else .pack1

theorem exec_packOfSize {n : BitVec 2} (hn : n ≠ 0) (s : State) :
    exec (packOfSize n) s = .next ((s.setSextets (sourcesWritten (.gfmt n) s)
      (gfmtSextets n (firstBytes n s.byteValues))).complete (sourcesWritten (.gfmt n) s) 0) := by
  have hsize : n = 1 ∨ n = 2 ∨ n = 3 := by decide +revert
  rw [sourcesWritten_gfmt s hn]
  rcases hsize with rfl | rfl | rfl
  · rfl
  · rfl
  · rfl

/-- GFMT over defined bytes: its whole next state, in which `S` is as the pack command leaves it (R139). -/
theorem exec_gfmt_of_written {n : BitVec 2} (hn : n ≠ 0) (hw : sourcesWritten (.gfmt n) s = true) :
    ∃ t, exec (.gfmt n) s = .next t ∧ (∃ u, exec (packOfSize n) s = .next u ∧ u.sextets = t.sextets) ∧
      t = ((s.setSextets true (gfmtSextets n (firstBytes n s.byteValues))).setSymbols true
        (gfmtSymbols s.config n (firstBytes n s.byteValues))).complete true 0 :=
  ⟨_, exec_gfmt hn s, ⟨_, exec_packOfSize hn s, rfl⟩, by rw [hw]⟩

/-! ### The text ENCODE writes -/

/-- The text of an input that fits IBUF has a length OLEN can hold (R8, log 5). -/
theorem textLength_lt_two_pow (c : Config) {n : Nat} (hn : n ≤ c.ibufCap) : 3 * (4 * ((n + 2) / 3)) < 2 ^ 32 := by
  obtain ⟨-, -, -, -, hfit, hcap, -⟩ := c.admitted
  omega

/-! ### The obligations -/

/-- Settles O21: each triplet puts one group in front, and what follows has its triplets one place earlier. -/
theorem encodeConcatenatesGroups : Obligations.EncodeConcatenatesGroups := by
  intro c x
  induction x using encodeBytes.induct with
  | case1 => rfl
  | case2 b0 => simp [encodeBytes]
  | case3 b0 b1 => simp [encodeBytes]
  | case4 b0 b1 b2 x ih =>
    have hq : (b0 :: b1 :: b2 :: x).length / 3 = x.length / 3 + 1 := Nat.add_div_right x.length three_pos
    have hr : (b0 :: b1 :: b2 :: x).length % 3 = x.length % 3 := Nat.add_mod_right x.length 3
    rw [encodeBytes, ih, hq, hr, List.range_succ_eq_map, List.flatMap_cons, List.flatMap_map, List.append_assoc]
    rfl

/-- Settles O22, with the sextets of the input and the padding its length calls for. -/
theorem encodedStringShape : Obligations.EncodedStringShape := fun c x =>
  ⟨inputSextets x, paddingLength x.length, encodeBytes_eq_map_append c x, inputSextets_length x, rfl,
    fun h1 =>
      have ⟨t, ht, hlow, _⟩ := getLast?_inputSextets (x := x) (by omega)
      ⟨t, ht, hlow h1⟩,
    fun h2 =>
      have ⟨t, ht, _, hlow⟩ := getLast?_inputSextets (x := x) (by omega)
      ⟨t, ht, hlow h2⟩⟩

/-- Settles O23: both groups are the code of the same triplet. -/
theorem outputGroupsIndependent : Obligations.OutputGroupsIndependent := by
  intro c x y g h hxy j hj
  have htriplet : (x.drop (3 * g)).take 3 = (y.drop (3 * h)).take 3 := by
    ext1 k
    rcases Nat.lt_or_ge k 3 with hk | hk
    · rw [List.getElem?_take_of_lt hk, List.getElem?_take_of_lt hk, List.getElem?_drop, List.getElem?_drop, hxy k hk]
    · rw [List.getElem?_take_eq_none hk, List.getElem?_take_eq_none hk]
  rw [getElem?_encodeBytes c x g hj, getElem?_encodeBytes c y h hj, htriplet]

/-- Settles O25, size by size from the equation of GFMT over defined bytes. -/
theorem gfmtFormatsGroup : Obligations.GfmtFormatsGroup :=
  ⟨⟨rfl, rfl, rfl, _, rfl⟩, fun _ =>
    ⟨exec_gfmt_of_written (by decide), exec_gfmt_of_written (by decide), exec_gfmt_of_written (by decide)⟩⟩

/-- Settles O27: the units below ILEN are the input, and its text fits OLEN because it fits OBUF. -/
theorem encodeWritesTextOfInput : Obligations.EncodeWritesTextOfInput := by
  refine ⟨rfl, fun s => ⟨fun x hl hc hx => ?_, exec_encode_badLength⟩⟩
  have hunits : s.ibuf.readUnits 0 s.ilen.toNat = some x :=
    Memory.readUnits_eq_some.2 ⟨hl, fun k hk => by rw [Nat.zero_add, hx k (hl ▸ hk)]⟩
  refine ⟨_, exec_encode_of_units hc hunits, Memory.read_ofUnits_zero _, ?_, rfl⟩
  have hlen : (textOf (encodeBytes s.config x)).length = 3 * (4 * ((x.length + 2) / 3)) := by
    rw [textOf_length, encodeBytes_length]
  calc (BitVec.ofNat 32 (textOf (encodeBytes s.config x)).length).toNat
    _ = 3 * (4 * ((x.length + 2) / 3)) := by
      rw [hlen, BitVec.toNat_ofNat, Nat.mod_eq_of_lt (textLength_lt_two_pow s.config (hl ▸ hc))]
    _ = 12 * ((x.length + 2) / 3) := (Nat.mul_assoc 3 4 _).symm

/-- Settles O20: the group's lookups are those of its sextets, and the padding is entry 0. -/
theorem formatGroupLooksUpAndPads : Obligations.FormatGroupLooksUpAndPads := by
  intro c b0 b1 b2
  simp only [Config.alphaD_getElem, Config.alphaP_zero]
  exact ⟨rfl, rfl, rfl⟩

end Sys2Proof.Machine

/-! ## Decoder

`Decode` is a lookup of the data positions followed by a packing of the sextets found: the lookup of a string succeeds
on the data symbols of a list of sextets and on nothing else, and the bytes are `sextetBytes` of that list. From this
the checks and the bytes of `Decode` (O28 to O30), the round trip (O31, O32), and what DECODE (O33) and GVAL (O34 to
O36) leave. -/

namespace Sys2Proof

variable {c : Config} {ys : List Symbol}

/-! ### The lookup of a string of data positions -/

theorem Config.indexOf_data_eq_some_iff {y : Symbol} {i : Sextet} :
    c.indexOf .data y = some i ↔ y = c.dataSymbol i := by
  rw [Config.indexOf_eq_some_iff, Config.symbolAt, Config.table, Config.alphaD_getElem, Option.some_inj, eq_comm]

@[simp] theorem Config.indexOf_dataSymbol (c : Config) (i : Sextet) : c.indexOf .data (c.dataSymbol i) = some i :=
  Config.indexOf_data_eq_some_iff.2 rfl

theorem Config.indexOf_data_eq_none_iff {y : Symbol} : c.indexOf .data y = none ↔ c.isData y = false :=
  Option.isNone_iff_eq_none.symm.trans Option.isSome_eq_false_iff.symm

@[simp] theorem Config.isPad_dataSymbol (c : Config) (i : Sextet) : c.isPad (c.dataSymbol i) = false :=
  Bool.eq_false_iff.2 fun h => c.alphaD_disjoint_alphaP (c.dataSymbol_mem i) (Config.isPad_iff.1 h)

@[simp] theorem Config.isPad_padSymbol (c : Config) : c.isPad c.padSymbol = true := Config.isPad_iff.2 c.padSymbol_mem

/-- The data indices of a string, none where a lookup fails (R153, R154). -/
def Config.dataIndices (c : Config) (ys : List Symbol) : Option (List Sextet) := ys.mapM (c.indexOf .data)

@[simp] theorem Config.dataIndices_nil (c : Config) : c.dataIndices [] = some [] := rfl

theorem Config.dataIndices_cons (y : Symbol) (ys : List Symbol) : c.dataIndices (y :: ys) =
    (c.indexOf .data y).bind fun t => (c.dataIndices ys).map (t :: ·) := by
  simp [Config.dataIndices, Option.map_eq_bind]

theorem Config.dataIndices_append (xs ys : List Symbol) : c.dataIndices (xs ++ ys) =
    (c.dataIndices xs).bind fun ts => (c.dataIndices ys).map (ts ++ ·) := by
  simp [Config.dataIndices, Option.map_eq_bind]

@[simp] theorem Config.dataIndices_map_dataSymbol (c : Config) (ts : List Sextet) :
    c.dataIndices (ts.map c.dataSymbol) = some ts := by
  induction ts with
  | nil => rfl
  | cons t ts ih => simp [Config.dataIndices_cons, ih]

theorem Config.dataIndices_eq_some_iff {ts : List Sextet} : c.dataIndices ys = some ts ↔ ys = ts.map c.dataSymbol := by
  constructor
  · intro h
    induction ys generalizing ts with
    | nil => cases h; rfl
    | cons y ys ih =>
      simp only [Config.dataIndices_cons, Option.bind_eq_some_iff, Option.map_eq_some_iff] at h
      obtain ⟨t, ht, ts', hts, rfl⟩ := h
      rw [Config.indexOf_data_eq_some_iff.1 ht, ih hts, List.map_cons]
  · rintro rfl
    exact c.dataIndices_map_dataSymbol ts

theorem Config.dataIndices_eq_none_iff : c.dataIndices ys = none ↔ ∃ y ∈ ys, c.isData y = false := by
  induction ys with
  | nil => simp
  | cons y ys ih =>
    rw [List.exists_mem_cons_iff, ← ih, ← Config.indexOf_data_eq_none_iff, Config.dataIndices_cons]
    cases c.indexOf .data y with
    | none => simp
    | some t => simp

end Sys2Proof

namespace Sys2Proof.Machine

variable {c : Config} {ys : List Symbol} {s : State}

/-! ### Padding -/

/-- The first `q` entries of a list all satisfy `p` just when `takeWhile` takes at least `q`. -/
theorem forall_mem_take_iff_le_length_takeWhile {α : Type} {p : α → Bool} {l : List α} {q : Nat} (hq : q ≤ l.length) :
    (∀ y ∈ l.take q, p y = true) ↔ q ≤ (l.takeWhile p).length := by
  induction l generalizing q with
  | nil => simpa using hq
  | cons a l ih =>
    cases q with
    | zero => simp
    | succ q =>
      rw [List.take_succ_cons, List.forall_mem_cons, ih (Nat.le_of_succ_le_succ hq)]
      cases ha : p a with
      | false => simp [ha]
      | true => simp [ha]

/-- The last `q` symbols are all padding just when `paddingCount` is at least `q` (R149). -/
theorem forall_isPad_drop_iff {q : Nat} (hq : q ≤ ys.length) :
    (∀ y ∈ ys.drop (ys.length - q), c.isPad y = true) ↔ q ≤ paddingCount c ys := by
  rw [paddingCount, ← forall_mem_take_iff_le_length_takeWhile (ys.length_reverse ▸ hq), List.take_reverse]
  simp only [List.mem_reverse]

theorem paddingCount_le_length (c : Config) (ys : List Symbol) : paddingCount c ys ≤ ys.length := by
  rw [paddingCount, ← ys.length_reverse]
  exact (List.takeWhile_prefix _).length_le

/-- Behind data symbols `paddingCount` counts the padding symbols (R149). -/
theorem paddingCount_map_dataSymbol_append (ts : List Sextet) {ps : List Symbol} (hps : ∀ y ∈ ps, c.isPad y = true) :
    paddingCount c (ts.map c.dataSymbol ++ ps) = ps.length := by
  have hdata : (ts.map c.dataSymbol).reverse.takeWhile c.isPad = [] := by
    rw [← List.map_reverse, List.takeWhile_map]
    cases ts.reverse with
    | nil => rfl
    | cons t ts => simp
  rw [paddingCount, List.reverse_append, List.takeWhile_append_of_pos (by simpa using hps), hdata, List.append_nil,
    List.length_reverse]

/-! ### The bytes of a list of sextets -/

/-- The bytes `Decode` builds from the sextets it looks up: three from each four, then two from three or one from two
(R153, R154). -/
def sextetBytes : List Sextet → List Byte
  | s0 :: s1 :: s2 :: s3 :: ts =>
    (unpack4 s0 s1 s2 s3).l0 :: (unpack4 s0 s1 s2 s3).l1 :: (unpack4 s0 s1 s2 s3).l2 :: sextetBytes ts
  | [s0, s1, s2] => [(unpack3 s0 s1 s2).1, (unpack3 s0 s1 s2).2]
  | [s0, s1] => [unpack2 s0 s1]
  | [_] => []
  | [] => []

theorem sextetBytes_length (ts : List Sextet) :
    (sextetBytes ts).length = ts.length / 4 * 3 + (ts.length % 4 - 1) := by
  induction ts using sextetBytes.induct with
  | case1 s0 s1 s2 s3 ts ih => simp only [sextetBytes, List.length_cons, ih]; omega
  | case2 s0 s1 s2 | case3 s0 s1 | case4 s0 | case5 => simp [sextetBytes]

theorem sextetBytes_append {ts : List Sextet} (h : ts.length % 4 = 0) (us : List Sextet) :
    sextetBytes (ts ++ us) = sextetBytes ts ++ sextetBytes us := by
  induction ts using sextetBytes.induct with
  | case1 s0 s1 s2 s3 ts ih =>
    simp only [List.cons_append, sextetBytes, ih ((Nat.add_mod_right ts.length 4).symm.trans h)]
  | case2 s0 s1 s2 | case3 s0 s1 | case4 s0 => simp at h
  | case5 => rfl

/-- The encoder's sextets give back the input (R117 a, c, d). -/
theorem sextetBytes_inputSextets (x : List Byte) : sextetBytes (inputSextets x) = x := by
  induction x using inputSextets.induct with
  | case1 => rfl
  | case2 b0 => rw [inputSextets, sextetBytes, unpack2_pack1]
  | case3 b0 b1 => rw [inputSextets, sextetBytes, unpack3_pack2]
  | case4 b0 b1 b2 x ih =>
    simp only [inputSextets, List.cons_append, List.nil_append, sextetBytes, unpack4_pack3, ih]

/-! ### The bytes of a string of data positions -/

/-- The bytes of a string of data positions, none where a lookup fails (R153, R154). -/
def parseData (c : Config) (ys : List Symbol) : Option (List Byte) := (c.dataIndices ys).map sextetBytes

@[simp] theorem parseData_map_dataSymbol (c : Config) (ts : List Sextet) :
    parseData c (ts.map c.dataSymbol) = some (sextetBytes ts) := by
  rw [parseData, Config.dataIndices_map_dataSymbol, Option.map_some]

theorem parseData_eq_some_iff {bs : List Byte} :
    parseData c ys = some bs ↔ ∃ ts, ys = ts.map c.dataSymbol ∧ sextetBytes ts = bs := by
  simp only [parseData, Option.map_eq_some_iff, Config.dataIndices_eq_some_iff]

theorem parseData_eq_none_iff : parseData c ys = none ↔ ∃ y ∈ ys, c.isData y = false := by
  rw [parseData, Option.map_eq_none_iff, Config.dataIndices_eq_none_iff]

theorem exists_parseData_eq_some (h : ∀ y ∈ ys, c.isData y = true) : ∃ bs, parseData c ys = some bs :=
  Option.ne_none_iff_exists'.1 fun hnone =>
    have ⟨y, hy, hd⟩ := parseData_eq_none_iff.1 hnone
    Bool.eq_false_iff.1 hd (h y hy)

theorem parseData_length {bs : List Byte} (h : parseData c ys = some bs) :
    bs.length = ys.length / 4 * 3 + (ys.length % 4 - 1) := by
  obtain ⟨ts, rfl, rfl⟩ := parseData_eq_some_iff.1 h
  rw [sextetBytes_length, List.length_map]

/-- Whole groups are parsed apart from what follows them. -/
theorem parseData_append {xs : List Symbol} (h : xs.length % 4 = 0) (ys : List Symbol) :
    parseData c (xs ++ ys) = (parseData c xs).bind fun full => (parseData c ys).map (full ++ ·) := by
  unfold parseData
  rw [Config.dataIndices_append]
  cases hx : c.dataIndices xs with
  | none => rfl
  | some ts =>
    rw [Config.dataIndices_eq_some_iff.1 hx, List.length_map] at h
    simp [Function.comp_def, sextetBytes_append h]

/-! ### The three parsers of the model -/

theorem parseGroup4_eq (y0 y1 y2 y3 : Symbol) : parseGroup4 c y0 y1 y2 y3 = parseData c [y0, y1, y2, y3] := by
  simp only [parseGroup4, parseData, Config.dataIndices_cons, Config.dataIndices_nil]
  rcases c.indexOf .data y0 with _ | s0
  · rfl
  rcases c.indexOf .data y1 with _ | s1
  · rfl
  rcases c.indexOf .data y2 with _ | s2
  · rfl
  rcases c.indexOf .data y3 with _ | s3
  · rfl
  · rfl

theorem parseFullGroups_eq : ∀ {ys : List Symbol}, ys.length % 4 = 0 → parseFullGroups c ys = parseData c ys
  | [], _ => rfl
  | [_], h | [_, _], h | [_, _, _], h => by simp at h
  | y0 :: y1 :: y2 :: y3 :: ys, h => by
    have ih := parseFullGroups_eq ((Nat.add_mod_right ys.length 4).symm.trans h)
    rw [parseFullGroups, parseGroup4_eq, ih, show y0 :: y1 :: y2 :: y3 :: ys = [y0, y1, y2, y3] ++ ys from rfl,
      parseData_append (by simp)]
    rcases parseData c [y0, y1, y2, y3] with _ | b
    · rfl
    rcases parseData c ys with _ | bs
    · rfl
    · rfl

theorem parsePartial_eq (hlt : ys.length < 4) (hne : ys.length ≠ 1) : parsePartial c ys = parseData c ys := by
  obtain _ | ⟨y0, _ | ⟨y1, _ | ⟨y2, _ | ⟨y3, ys⟩⟩⟩⟩ := ys
  · rfl
  · simp at hne
  · simp only [parsePartial, parseData, Config.dataIndices_cons, Config.dataIndices_nil]
    rcases c.indexOf .data y0 with _ | s0
    · rfl
    rcases c.indexOf .data y1 with _ | s1
    · rfl
    · rfl
  · simp only [parsePartial, parseData, Config.dataIndices_cons, Config.dataIndices_nil]
    rcases c.indexOf .data y0 with _ | s0
    · rfl
    rcases c.indexOf .data y1 with _ | s1
    · rfl
    rcases c.indexOf .data y2 with _ | s2
    · rfl
    · rfl
  · simp only [List.length_cons] at hlt
    omega

/-! ### Decode of a symbol string -/

theorem decodeSymbols_of_excess (hp : 2 < paddingCount c ys) : decodeSymbols c ys = .error .excessPadding := if_pos hp

/-- Whole groups with at most two trailing padding symbols: the bytes of the data positions (R150 to R154). -/
theorem decodeSymbols_eq_elim (hl : ys.length % 4 = 0) (hp : paddingCount c ys ≤ 2) : decodeSymbols c ys =
    (parseData c (ys.take (ys.length - paddingCount c ys))).elim (.error .symbolNotFound) .ok := by
  rw [decodeSymbols]
  simp only [if_neg (Nat.not_lt.2 hp)]
  have hle := paddingCount_le_length c ys
  generalize hn : ys.length - paddingCount c ys = n
  have hq : 4 * (n / 4) ≤ n := Nat.mul_div_le n 4
  have hfull : (ys.take (4 * (n / 4))).length % 4 = 0 := by rw [List.length_take]; omega
  have hrest : ((ys.take n).drop (4 * (n / 4))).length = n % 4 := by
    rw [List.length_drop, List.length_take]; omega
  have hsplit : ys.take n = ys.take (4 * (n / 4)) ++ (ys.take n).drop (4 * (n / 4)) := by
    conv_lhs => rw [← List.take_append_drop (4 * (n / 4)) (ys.take n), List.take_take, Nat.min_eq_left hq]
  rw [parseFullGroups_eq hfull, parsePartial_eq (by omega) (by omega)]
  conv_rhs => rw [hsplit, parseData_append hfull]
  rcases parseData c (ys.take (4 * (n / 4))) with _ | full
  · rfl
  rcases parseData c ((ys.take n).drop (4 * (n / 4))) with _ | rest
  · rfl
  · rfl

/-! ### Decode of a text -/

theorem lengthError_of_partial_group {n : Nat} (h0 : n ≠ 0) (h : n % 12 ≠ 0) :
    lengthError n = some .unsupportedEncoding := by
  rw [lengthError, if_neg h0]
  split_ifs with h3 h4
  · rfl
  · rfl
  · omega

theorem lengthError_of_groups {n : Nat} (h0 : n ≠ 0) (h : n % 12 = 0) : lengthError n = none := by
  rw [lengthError, if_neg h0, if_neg (by omega), if_neg (by omega)]

theorem decodeText_of_lengthError {us : List Byte} {k : ErrorKind} (h : lengthError us.length = some k) :
    decodeText c us = .error k := by
  rw [decodeText, h]

theorem decodeText_of_groups {us : List Byte} (h0 : us.length ≠ 0) (h : us.length % 12 = 0) :
    decodeText c us = decodeSymbols c (symbolsOf us) := by
  rw [decodeText, lengthError_of_groups h0 h]

theorem decodeText_textOf (h0 : ys.length ≠ 0) (hl : ys.length % 4 = 0) :
    decodeText c (textOf ys) = decodeSymbols c ys := by
  rw [decodeText_of_groups (by rw [textOf_length]; omega) (by rw [textOf_length]; omega), symbolsOf_textOf]

/-- Data symbols with at most two padding symbols behind them give the bytes of their sextets (R158). -/
theorem decodeText_dataSymbols_append {ts : List Sextet} {ps : List Symbol} (hts : ts ≠ [])
    (hps : ∀ y ∈ ps, c.isPad y = true) (hp : ps.length ≤ 2) (hl : (ts.length + ps.length) % 4 = 0) :
    decodeText c (textOf (ts.map c.dataSymbol ++ ps)) = .ok (sextetBytes ts) := by
  have hcount : paddingCount c (ts.map c.dataSymbol ++ ps) = ps.length := paddingCount_map_dataSymbol_append ts hps
  have hlen : (ts.map c.dataSymbol ++ ps).length = ts.length + ps.length := by simp
  have hdata : (ts.map c.dataSymbol ++ ps).take (ts.length + ps.length - ps.length) = ts.map c.dataSymbol :=
    List.take_left' (by simp)
  rw [decodeText_textOf (by simp [hts]) (hlen ▸ hl), decodeSymbols_eq_elim (hlen ▸ hl) (hcount ▸ hp), hcount, hlen,
    hdata, parseData_map_dataSymbol, Option.elim_some]

theorem paddingLength_le_two (n : Nat) : paddingLength n ≤ 2 := by
  unfold paddingLength
  split_ifs <;> decide

/-- The encoder's output is data symbols and padding, and its sextets give back the input (R161). -/
theorem decodeText_textOf_encodeBytes (c : Config) {x : List Byte} (hx : x ≠ []) :
    decodeText c (textOf (encodeBytes c x)) = .ok x := by
  have hts : inputSextets x ≠ [] := fun h => hx (by rw [← sextetBytes_inputSextets x, h, sextetBytes])
  have hpad : ∀ y ∈ List.replicate (paddingLength x.length) c.padSymbol, c.isPad y = true := fun y hy => by
    rw [List.eq_of_mem_replicate hy, Config.isPad_padSymbol]
  rw [encodeBytes_eq_map_append, decodeText_dataSymbols_append hts hpad, sextetBytes_inputSextets]
  · rw [List.length_replicate]
    exact paddingLength_le_two _
  · rw [List.length_replicate, inputSextets_length]
    exact Nat.mul_mod_right _ _

/-! ### Groups of four as lists -/

/-- A file of four as the list of its lanes. -/
def quadList {α : Type} (q : Quad α) : List α := [q.l0, q.l1, q.l2, q.l3]

@[simp] theorem quadList_length {α : Type} (q : Quad α) : (quadList q).length = 4 := rfl

theorem flatMap_dataGroup (c : Config) (gs : List (Quad Sextet)) :
    gs.flatMap (dataGroup c) = (gs.flatMap quadList).map c.dataSymbol := by
  rw [List.map_flatMap]
  rfl

theorem length_flatMap_quadList (gs : List (Quad Sextet)) : (gs.flatMap quadList).length = 4 * gs.length := by
  simp [List.length_flatMap, Nat.mul_comm]

theorem sextetBytes_flatMap_append (gs : List (Quad Sextet)) (ts : List Sextet) :
    sextetBytes (gs.flatMap quadList ++ ts) = gs.flatMap groupTriple ++ sextetBytes ts := by
  induction gs with
  | nil => rfl
  | cons g gs ih =>
    rw [List.flatMap_cons, List.flatMap_cons, List.append_assoc, List.append_assoc, ← ih]
    rfl

/-- Full groups and a partial group with any padding entries (R153, R154, R158). -/
theorem decodeText_groups_append {gs : List (Quad Sextet)} {ts : List Sextet} {ps : List Symbol}
    (hpos : 0 < gs.length + ts.length) (hps : ∀ y ∈ ps, c.isPad y = true) (hp : ps.length ≤ 2)
    (hl : (ts.length + ps.length) % 4 = 0) :
    decodeText c (textOf (gs.flatMap (dataGroup c) ++ (ts.map c.dataSymbol ++ ps))) =
      .ok (gs.flatMap groupTriple ++ sextetBytes ts) := by
  have hlen : (gs.flatMap quadList ++ ts).length = 4 * gs.length + ts.length := by
    rw [List.length_append, length_flatMap_quadList]
  rw [flatMap_dataGroup, ← List.append_assoc, ← List.map_append,
    decodeText_dataSymbols_append (List.ne_nil_of_length_pos (by omega)) hps hp (by omega), sextetBytes_flatMap_append]

/-- R115 in shifts. -/
theorem unpack2_eq_shifts (s0 s1 : Sextet) : unpack2 s0 s1 = (s0.setWidth 8 <<< 2) ||| (s1.setWidth 8 >>> 4) := by
  obtain ⟨-, hunpack⟩ := shiftFormsOfPackAndUnpack
  obtain ⟨-, h0, -⟩ := hunpack s0 s1 0 0
  exact h0

/-- R116 in shifts. -/
theorem unpack3_eq_shifts (s0 s1 s2 : Sextet) : unpack3 s0 s1 s2 = ((s0.setWidth 8 <<< 2) ||| (s1.setWidth 8 >>> 4),
    ((s1.setWidth 8 &&& 0x0F) <<< 4) ||| (s2.setWidth 8 >>> 2)) := by
  obtain ⟨-, hunpack⟩ := shiftFormsOfPackAndUnpack
  obtain ⟨-, h0, h1, -⟩ := hunpack s0 s1 s2 0
  exact congrArg₂ Prod.mk h0 h1

/-! ### DECODE over a written input -/

theorem readUnits_of_read {m : Memory} {us : List Byte} (h : ∀ k, k < us.length → m.read k = us[k]?) :
    m.readUnits 0 us.length = some us :=
  Memory.readUnits_eq_some.2 ⟨rfl, fun k hk => by rw [Nat.zero_add, h k hk]⟩

/-- What `Decode` answers is no longer than the input, and so OLEN holds its length (R152, R8). -/
theorem setOutput_olen_toNat_of_decodeText {us bs : List Byte} (hl : us.length = s.ilen.toNat)
    (hb : decodeText s.config us = .ok bs) : (s.setOutput bs).olen.toNat = bs.length := by
  have hlt := s.ilen.isLt
  have hle := decodeText_length_le hb
  rw [State.setOutput_olen, BitVec.toNat_ofNat, Nat.mod_eq_of_lt (by omega)]

section Input

variable {us : List Byte} (hl : us.length = s.ilen.toNat) (hc : s.ilen.toNat ≤ s.config.ibufCap)
  (hu : ∀ k, k < us.length → s.ibuf.read k = us[k]?)

include hl hc hu

theorem exec_decode_writes {bs : List Byte} (hb : decodeText s.config us = .ok bs) :
    exec .decode s = .next ((s.setOutput bs).complete true 0) := by
  refine exec_decode_of_ok hc ?_ (hl ▸ readUnits_of_read hu) hb
  rw [← hl]
  cases hk : lengthError us.length with
  | none => rfl
  | some k => rw [decodeText_of_lengthError hk] at hb; cases hb

theorem exec_decode_reports {k : ErrorKind} (hk : decodeText s.config us = .error k) :
    exec .decode s = .next (s.raiseBuffer k) := by
  cases hle : lengthError us.length with
  | none => exact exec_decode_of_error hc (hl ▸ hle) (hl ▸ readUnits_of_read hu) hk
  | some k' =>
    rw [decodeText_of_lengthError hle] at hk
    cases hk
    exact exec_decode_lengthError hc (hl ▸ hle)

end Input

/-! ### The padding and the data positions of a group -/

section Group

variable {y : Quad Symbol} {m : Nat}

theorem trailingPadding_eq (c : Config) (y : Quad Symbol) : trailingPadding c y = paddingCount c (quadList y) := by
  simp only [trailingPadding, paddingCount, quadList, List.reverse_cons, List.reverse_nil, List.nil_append,
    List.cons_append, List.takeWhile_cons, List.takeWhile_nil]
  split_ifs <;> rfl

theorem gvalPadding_true (c : Config) (y : Quad Symbol) : gvalPadding true c y = paddingCount c (quadList y) :=
  trailingPadding_eq c y

/-- A final group has at least `q` padding symbols just when its last `q` symbols are padding (R149). -/
theorem le_gvalPadding_iff {q : Nat} (hq : q ≤ 4) :
    q ≤ gvalPadding true c y ↔ ∀ x ∈ (quadList y).drop (4 - q), c.isPad x = true := by
  rw [gvalPadding_true, ← forall_isPad_drop_iff hq, quadList_length]

/-- A final group of data symbols and padding behind them has that padding. -/
theorem gvalPadding_of_data {ts : List Sextet} {ps : List Symbol} (hps : ∀ x ∈ ps, c.isPad x = true)
    (hy : quadList y = ts.map c.dataSymbol ++ ps) : gvalPadding true c y = ps.length := by
  rw [gvalPadding_true, hy, paddingCount_map_dataSymbol_append ts hps]

theorem decodeText_quadList_of_excess (hp : 2 < gvalPadding true c y) :
    decodeText c (textOf (quadList y)) = .error .excessPadding := by
  rw [gvalPadding_true] at hp
  rw [decodeText_textOf (by simp) (by simp), decodeSymbols_of_excess hp]

/-- `Decode` of the four symbols of a group whose padding is not too much (R159). -/
theorem decodeText_quadList (hp : gvalPadding true c y ≤ 2) : decodeText c (textOf (quadList y)) =
    (parseData c ((quadList y).take (4 - gvalPadding true c y))).elim (.error .symbolNotFound) .ok := by
  rw [gvalPadding_true] at hp ⊢
  rw [decodeText_textOf (by simp) (by simp), decodeSymbols_eq_elim (by simp) hp, quadList_length]

/-- The sextet lanes that hold `ts`; those that carry nothing are 0 (R159). -/
def fillQuad (ts : List Sextet) : Quad Sextet := ⟨ts.getD 0 0, ts.getD 1 0, ts.getD 2 0, ts.getD 3 0⟩

/-- Where the data positions hold the symbols of `ts`, each position gives its entry of `ts`, and the others give 0. -/
theorem groupSextet_of_data {ts : List Sextet} (h : (quadList y).take m = ts.map c.dataSymbol) {k : Nat} {x : Symbol}
    (hx : (quadList y)[k]? = some x) : groupSextet c m k x = some (ts.getD k 0) := by
  rw [groupSextet]
  split_ifs with hk
  · have htk : (ts.map c.dataSymbol)[k]? = some x := by rw [← h, List.getElem?_take_of_lt hk, hx]
    rw [List.getElem?_map, Option.map_eq_some_iff] at htk
    obtain ⟨t, ht, rfl⟩ := htk
    rw [Config.indexOf_dataSymbol, List.getD_eq_getElem?_getD, ht, Option.getD_some]
  · have hlen : ts.length ≤ m := by
      rw [← List.length_map c.dataSymbol, ← h]
      exact List.length_take_le _ _
    rw [List.getD_eq_default _ _ (hlen.trans (Nat.le_of_not_lt hk))]

theorem groupSextets_of_data {ts : List Sextet} (h : (quadList y).take m = ts.map c.dataSymbol) :
    groupSextets c m y = some (fillQuad ts) := by
  rw [groupSextets, groupSextet_of_data h (k := 0) rfl, groupSextet_of_data h (k := 1) rfl,
    groupSextet_of_data h (k := 2) rfl, groupSextet_of_data h (k := 3) rfl]
  rfl

theorem groupSextet_eq_none {k : Nat} {x : Symbol} (hk : k < m) (hx : c.isData x = false) :
    groupSextet c m k x = none := by
  rw [groupSextet, if_pos hk, Config.indexOf_data_eq_none_iff.2 hx]

/-- A data position without a data symbol fails the group (R159). -/
theorem groupSextets_eq_none (h : ∃ x ∈ (quadList y).take m, c.isData x = false) : groupSextets c m y = none := by
  obtain ⟨x, hx, hd⟩ := h
  obtain ⟨k, hk, rfl⟩ := List.mem_take_iff_getElem.1 hx
  obtain ⟨hkm, hk4⟩ := Nat.lt_min.1 hk
  have hnone := groupSextet_eq_none hkm hd
  rw [groupSextets]
  split
  · rename_i h0 h1 h2 h3
    match k, hk4 with
    | 0, _ => cases h0.symm.trans hnone
    | 1, _ => cases h1.symm.trans hnone
    | 2, _ => cases h2.symm.trans hnone
    | 3, _ => cases h3.symm.trans hnone
  · rfl

/-- The byte lanes of a group hold the bytes of its sextets, then 0 (R159). -/
theorem groupBytes_fillQuad {ts : List Sextet} (h2 : 2 ≤ ts.length) (h4 : ts.length ≤ 4) :
    [(groupBytes ts.length (fillQuad ts)).l0, (groupBytes ts.length (fillQuad ts)).l1,
      (groupBytes ts.length (fillQuad ts)).l2] =
      sextetBytes ts ++ List.replicate (3 - (sextetBytes ts).length) 0 := by
  obtain _ | ⟨s0, _ | ⟨s1, _ | ⟨s2, _ | ⟨s3, _ | ⟨s4, ts⟩⟩⟩⟩⟩ := ts
  · exact absurd h2 (by simp)
  · exact absurd h2 (by simp)
  · rfl
  · rfl
  · rfl
  · simp only [List.length_cons] at h4
    omega

end Group

/-! ### GVAL over defined symbols -/

section Gval

variable {f : Bool} (hw : sourcesWritten (.gval f) s = true)

include hw

theorem exec_gval_excessPadding (hp : 2 < gvalPadding f s.config s.symbolValues) :
    exec (.gval f) s = .next { s with err := 3, cnt := 0, statusWritten := true } := by
  rw [exec_gval_of_excess hp, hw, State.keepGroup_true]
  rfl

theorem exec_gval_symbolNotFound (hp : gvalPadding f s.config s.symbolValues ≤ 2)
    (h : ∃ x ∈ (quadList s.symbolValues).take (4 - gvalPadding f s.config s.symbolValues), s.config.isData x = false) :
    exec (.gval f) s = .next { s with err := 4, cnt := 0, statusWritten := true } := by
  rw [exec_gval_of_none hp (groupSextets_eq_none h), hw, State.keepGroup_true]
  rfl

theorem exec_gval_parses {p : Nat} {ts : List Sextet} (hp : gvalPadding f s.config s.symbolValues = p) (hp2 : p ≤ 2)
    (h : (quadList s.symbolValues).take (4 - p) = ts.map s.config.dataSymbol) :
    exec (.gval f) s = .next (((s.setSextets true (fillQuad ts)).setBytes true
      (groupBytes (4 - p) (fillQuad ts))).complete true (BitVec.ofNat 2 (4 - p - 1))) := by
  subst hp
  rw [exec_gval_of_some hp2 (groupSextets_of_data h), hw]

end Gval

/-! ### The obligations -/

/-- Settles O31: `decodeText_textOf_encodeBytes`, and the length check for the empty text. -/
theorem decodeInvertsEncode : Obligations.DecodeInvertsEncode :=
  fun c _ => ⟨decodeText_textOf_encodeBytes c, fun hx => by rw [hx]; rfl⟩

/-- Settles O33: the outcomes of DECODE are those of `decodeText`, which answers every length error too. -/
theorem decodeWritesBytesOrReports : Obligations.DecodeWritesBytesOrReports := by
  refine ⟨rfl, fun s => ⟨exec_decode_badLength, fun h0 => ?_, fun hc h0 h12 => ?_, fun us hl hc hu =>
    ⟨fun bs hb => ?_, fun k hk => ?_⟩⟩⟩
  · exact exec_decode_lengthError (by rw [h0]; exact Nat.zero_le _) (by rw [h0]; rfl)
  · exact exec_decode_lengthError hc (lengthError_of_partial_group (fun h => h0 (BitVec.eq_of_toNat_eq h)) h12)
  · exact ⟨_, exec_decode_writes hl hc hu hb, Memory.read_ofUnits_zero _, setOutput_olen_toNat_of_decodeText hl hb, rfl⟩
  · exact exec_decode_reports hl hc hu hk

/-- Settles O32: ENCODE leaves the text of the input (O27), which DECODE finds in IBUF and decodes to it (O31). -/
theorem encodeCopyDecodeRestoresInput : Obligations.EncodeCopyDecodeRestoresInput := by
  intro s t u x hx hl hr hfit hexec hcfg hilen hcopy
  obtain ⟨-, hencode⟩ := encodeWritesTextOfInput
  obtain ⟨hwrites, -⟩ := hencode s
  obtain ⟨t', ht', hobuf, holen, -⟩ := hwrites x hl (by omega) hr
  obtain rfl : t' = t := Host.Outcome.next.inj (ht'.symm.trans hexec)
  have hlen : (textOf (encodeBytes s.config x)).length = u.ilen.toNat := by
    rw [textOf_length, encodeBytes_length, hilen, holen, ← Nat.mul_assoc]
  have hc : u.ilen.toNat ≤ u.config.ibufCap := by rw [hilen, holen, hcfg]; exact hfit
  have hunits : ∀ k, k < (textOf (encodeBytes s.config x)).length →
      u.ibuf.read k = (textOf (encodeBytes s.config x))[k]? := fun k hk => by
    rw [hcopy k (by rw [← hilen, ← hlen]; exact hk), hobuf]
  have hdecode : decodeText u.config (textOf (encodeBytes s.config x)) = .ok x := by
    rw [hcfg]; exact decodeText_textOf_encodeBytes _ hx
  exact ⟨_, exec_decode_writes hlen hc hunits hdecode, rfl, rfl, setOutput_olen_toNat_of_decodeText hlen hdecode,
    Memory.read_ofUnits_zero x⟩

/-- Settles O28: `paddingCount` bounds exactly the suffixes of padding symbols. -/
theorem paddingCountIsLongestSuffix : Obligations.PaddingCountIsLongestSuffix := by
  intro c ys p
  have hcount := paddingCount_le_length c ys
  constructor
  · rintro rfl
    exact ⟨hcount, (forall_isPad_drop_iff hcount).2 le_rfl, fun q hq => (forall_isPad_drop_iff hq).1⟩
  · rintro ⟨hle, hpad, hmax⟩
    exact le_antisymm (hmax _ hcount ((forall_isPad_drop_iff hcount).2 le_rfl)) ((forall_isPad_drop_iff hle).1 hpad)

/-- Settles O29: a text of whole groups is decoded as its symbols are, and what is looked up are the symbols before the
padding. -/
theorem decodeChecksInOrder : Obligations.DecodeChecksInOrder := by
  intro c us
  refine ⟨fun h0 => decodeText_of_lengthError (by rw [h0]; rfl), fun h0 hpart => ?_, fun h0 h12 => ?_⟩
  · exact decodeText_of_lengthError (lengthError_of_partial_group h0 (by omega))
  have hl : (symbolsOf us).length = us.length / 3 := symbolsOf_length us
  have hgroups : (symbolsOf us).length % 4 = 0 := by omega
  have hthree : EndsInThreePads c (symbolsOf us) ↔ 2 < paddingCount c (symbolsOf us) :=
    forall_isPad_drop_iff (by omega)
  rw [decodeText_of_groups h0 h12, hthree, ← hl]
  refine ⟨decodeSymbols_of_excess, fun hp => ?_⟩
  rw [decodeSymbols_eq_elim hgroups (Nat.le_of_not_lt hp)]
  refine ⟨fun hmissing => ?_, fun hall => ?_⟩
  · rw [parseData_eq_none_iff.2 hmissing, Option.elim_none]
  · obtain ⟨bs, hbs⟩ := exists_parseData_eq_some hall
    refine ⟨bs, by rw [hbs, Option.elim_some], ?_⟩
    rw [parseData_length hbs, List.length_take]
    split_ifs <;> omega

/-- Settles O30, with no partial group, with two and with three data symbols in it. -/
theorem decodeRebuildsBytes : Obligations.DecodeRebuildsBytes := by
  intro c gs s0 s1 s2 y z hy hz
  refine ⟨fun hgs => ?_, ?_, ?_⟩
  · have h := decodeText_groups_append (c := c) (gs := gs) (ts := []) (ps := [])
      (Nat.add_pos_left (List.length_pos_iff.2 hgs) _) (by simp) (by simp) (by simp)
    rwa [List.map_nil, List.append_nil, List.append_nil, sextetBytes, List.append_nil] at h
  · rw [← unpack2_eq_shifts]
    exact decodeText_groups_append (ts := [s0, s1]) (ps := [y, z]) (by simp) (by simp [hy, hz]) (by simp) (by simp)
  · have h := decodeText_groups_append (c := c) (gs := gs) (ts := [s0, s1, s2]) (ps := [y]) (by simp) (by simp [hy])
      (by simp) (by simp)
    rwa [sextetBytes, unpack3_eq_shifts] at h

/-- Settles O34, shape by shape: the padding behind the data symbols, then the lookups of what stands before it. -/
theorem gvalParsesGroup : Obligations.GvalParsesGroup := by
  refine ⟨⟨rfl, rfl⟩, fun s s0 s1 s2 s3 hw => ⟨fun f hy => ?_, fun y hpy hy => ?_, fun y z hpy hpz hy => ?_⟩⟩
  · have hlist : quadList s.symbolValues = [s0, s1, s2, s3].map s.config.dataSymbol := by rw [hy]; rfl
    have hp : gvalPadding f s.config s.symbolValues = 0 := by
      cases f with
      | false => rfl
      | true => exact gvalPadding_of_data (ps := []) (by simp) (by rw [hlist, List.append_nil])
    rw [exec_gval_parses (f := f) (ts := [s0, s1, s2, s3]) hw hp (by decide) (by rw [hlist]; rfl)]
    rfl
  · have hlist : quadList s.symbolValues = [s0, s1, s2].map s.config.dataSymbol ++ [y] := by rw [hy]; rfl
    have hp : gvalPadding true s.config s.symbolValues = 1 := gvalPadding_of_data (by simp [hpy]) hlist
    rw [exec_gval_parses (ts := [s0, s1, s2]) hw hp (by decide) (by rw [hlist]; rfl)]
    rfl
  · have hlist : quadList s.symbolValues = [s0, s1].map s.config.dataSymbol ++ [y, z] := by rw [hy]; rfl
    have hp : gvalPadding true s.config s.symbolValues = 2 := gvalPadding_of_data (by simp [hpy, hpz]) hlist
    rw [exec_gval_parses (ts := [s0, s1]) hw hp (by decide) (by rw [hlist]; rfl)]
    rfl

/-- Settles O35: three padding symbols are too many, and otherwise a data position without a data symbol fails. -/
theorem gvalReportsBadGroups : Obligations.GvalReportsBadGroups := by
  intro s hw
  have hthree : 3 ≤ gvalPadding true s.config s.symbolValues ↔ _ := le_gvalPadding_iff (by decide)
  have htwo : 2 ≤ gvalPadding true s.config s.symbolValues ↔ _ := le_gvalPadding_iff (by decide)
  have hone : 1 ≤ gvalPadding true s.config s.symbolValues ↔ _ := le_gvalPadding_iff (by decide)
  simp only [quadList, Nat.reduceSub, List.drop_succ_cons, List.drop_zero, List.forall_mem_cons, List.not_mem_nil,
    false_imp_iff, implies_true, and_true] at hthree htwo hone
  refine ⟨fun hpads => exec_gval_excessPadding hw (hthree.2 hpads), fun hpads hmissing => ?_, fun hmissing => ?_⟩
  · rw [← hthree] at hpads
    have hmem {k : Nat} {x : Symbol} (hx : (quadList s.symbolValues)[k]? = some x)
        (hk : k + gvalPadding true s.config s.symbolValues < 4) :
        x ∈ (quadList s.symbolValues).take (4 - gvalPadding true s.config s.symbolValues) :=
      List.mem_of_getElem? ((List.getElem?_take_of_lt (Nat.lt_sub_of_add_lt hk)).trans hx)
    refine exec_gval_symbolNotFound hw (Nat.le_of_not_lt hpads) ?_
    rcases hmissing with hd | hd | ⟨hd, hpad⟩ | ⟨hd, hpad⟩
    · exact ⟨_, hmem (k := 0) rfl (by omega), hd⟩
    · exact ⟨_, hmem (k := 1) rfl (by omega), hd⟩
    · rw [← htwo] at hpad
      exact ⟨_, hmem (k := 2) rfl (by omega), hd⟩
    · rw [← Bool.not_eq_true, ← hone] at hpad
      exact ⟨_, hmem (k := 3) rfl (by omega), hd⟩
  · exact exec_gval_symbolNotFound (f := false) hw (Nat.zero_le 2) (by simpa [gvalPadding, quadList] using hmissing)

/-- Settles O36: `Decode` of the four symbols and GVAL make the same checks and the same lookups. -/
theorem gvalFinalEqualsDecode : Obligations.GvalFinalEqualsDecode := by
  intro s hw
  show (∀ bs, decodeText s.config (textOf (quadList s.symbolValues)) = .ok bs → _) ∧
    ∀ k, decodeText s.config (textOf (quadList s.symbolValues)) = .error k → _
  rcases Nat.lt_or_ge 2 (gvalPadding true s.config s.symbolValues) with hlt | hle
  · rw [decodeText_quadList_of_excess hlt]
    refine ⟨fun bs hbs => (nomatch hbs), fun k hk => ?_⟩
    cases hk
    exact exec_gval_excessPadding hw hlt
  rw [decodeText_quadList hle]
  cases hd : parseData s.config ((quadList s.symbolValues).take (4 - gvalPadding true s.config s.symbolValues)) with
  | none =>
    refine ⟨fun bs hbs => (nomatch hbs), fun k hk => ?_⟩
    cases hk
    exact exec_gval_symbolNotFound hw hle (parseData_eq_none_iff.1 hd)
  | some bs =>
    obtain ⟨ts, hts, rfl⟩ := parseData_eq_some_iff.1 hd
    refine ⟨fun bs' hbs => ?_, fun k hk => nomatch hk⟩
    cases hbs
    have hlen : ts.length = 4 - gvalPadding true s.config s.symbolValues := by
      rw [← List.length_map s.config.dataSymbol, ← hts, List.length_take]
      exact Nat.min_eq_left (Nat.sub_le 4 _)
    refine ⟨_, exec_gval_parses hw rfl hle hts, rfl, ?_, ?_⟩
    · rw [State.complete_cnt, sextetBytes_length, BitVec.toNat_ofNat]
      omega
    · rw [← hlen]
      exact groupBytes_fillQuad (by omega) (by omega)

end Sys2Proof.Machine

/-! ## Errors

A command that answers a next state either completes with `OK` or leaves `errorState` of a kind in its `reportedKinds`.
From this what an error leaves alone (O37), which kinds each command reports (O38), and that none reports
`InternalInconsistency` (O39). Beside them stands the idle block (O6). -/

namespace Sys2Proof.Machine

variable {s t : State} {i : Instr} {k : ErrorKind}

/-! ### What a command leaves when it reports an error -/

/-- The error kinds a command can report (R181); the ill-formed term GFMT 0 reports what its illegal word does (log 11). -/
def reportedKinds : Instr → List ErrorKind
  | .pack3 | .pack2 | .pack1 | .unpk4 | .unpk3 | .unpk2 => []
  | .symat _ _ => [.indexRange]
  | .idxof _ _ => [.symbolNotFound]
  | .gfmt n => if n = 0 then [.illegalCommand] else []
  | .gval _ => [.excessPadding, .symbolNotFound]
  | .encode => [.badLength]
  | .decode => [.badLength, .emptyInput, .unsupportedEncoding, .excessPadding, .symbolNotFound]

/-- The state a command leaves when it reports `k` (R175): `raise`, after `keep` of its destination lanes (log 13), or
`raiseBuffer` for ENCODE and DECODE. -/
def errorState (i : Instr) (k : ErrorKind) (s : State) : State :=
  let w := sourcesWritten i s
  match i with
  | .pack3 | .pack2 | .pack1 | .unpk4 | .unpk3 | .unpk2 | .gfmt _ => s.raise w k
  | .symat _ l => (s.keepSymbol l w).raise w k
  | .idxof _ l => (s.keepSextet l w).raise w k
  | .gval _ => (s.keepGroup w).raise w k
  | .encode | .decode => s.raiseBuffer k

@[simp] theorem errorState_err (i : Instr) (k : ErrorKind) (s : State) : (errorState i k s).err = k.code := by
  cases i <;> rfl

/-- A command completes with `OK`, or reports one of its kinds. -/
theorem exec_next_ok_or_error (h : exec i s = .next t) :
    t.err = 0 ∨ ∃ k ∈ reportedKinds i, t = errorState i k s := by
  cases i with
  | pack3 | pack2 | pack1 | unpk4 | unpk3 | unpk2 => cases h; exact .inl rfl
  | symat a l =>
    cases hy : s.config.symbolAt a (s.sextets.get l).value with
    | some y => rw [exec_symat_of_some hy] at h; cases h; exact .inl rfl
    | none => rw [exec_symat_of_none hy] at h; cases h; exact .inr ⟨.indexRange, by simp [reportedKinds], rfl⟩
  | idxof a l =>
    cases hx : s.config.indexOf a (s.symbols.get l).value with
    | some x => rw [exec_idxof_of_some hx] at h; cases h; exact .inl rfl
    | none => rw [exec_idxof_of_none hx] at h; cases h; exact .inr ⟨.symbolNotFound, by simp [reportedKinds], rfl⟩
  | gfmt n =>
    by_cases hn : n = 0
    · subst hn; rw [exec_gfmt_zero] at h; cases h; exact .inr ⟨.illegalCommand, by simp [reportedKinds], rfl⟩
    · rw [exec_gfmt hn] at h; cases h; exact .inl rfl
  | gval f =>
    rcases Nat.lt_or_ge 2 (gvalPadding f s.config s.symbolValues) with hp | hp
    · rw [exec_gval_of_excess hp] at h; cases h; exact .inr ⟨.excessPadding, by simp [reportedKinds], rfl⟩
    · cases hq : groupSextets s.config (4 - gvalPadding f s.config s.symbolValues) s.symbolValues with
      | some q => rw [exec_gval_of_some hp hq] at h; cases h; exact .inl rfl
      | none => rw [exec_gval_of_none hp hq] at h; cases h; exact .inr ⟨.symbolNotFound, by simp [reportedKinds], rfl⟩
  | encode =>
    rcases execEncode_next h with ⟨-, rfl⟩ | ⟨-, _, -, rfl⟩
    · exact .inr ⟨.badLength, by simp [reportedKinds], rfl⟩
    · exact .inl rfl
  | decode =>
    rcases execDecode_next h with ⟨-, rfl⟩ | ⟨-, k, hk, rfl⟩ | ⟨-, -, _, -, ⟨_, -, rfl⟩ | ⟨k, hk, rfl⟩⟩
    · exact .inr ⟨.badLength, by simp [reportedKinds], rfl⟩
    · exact .inr ⟨k, by rcases lengthError_kind hk with rfl | rfl <;> simp [reportedKinds], rfl⟩
    · exact .inl rfl
    · exact .inr ⟨k, by rcases decodeText_kind hk with rfl | rfl | rfl | rfl <;> simp [reportedKinds], rfl⟩

/-- The same of `STATUS.ERR` alone (R181). -/
theorem exec_err (h : exec i s = .next t) : t.err = 0 ∨ ∃ k ∈ reportedKinds i, t.err = k.code := by
  rcases exec_next_ok_or_error h with h0 | ⟨k, hk, rfl⟩
  · exact .inl h0
  · exact .inr ⟨k, hk, errorState_err i k s⟩

theorem ErrorKind.eq_internalInconsistency_of_code (h : k.code = 5) : k = .internalInconsistency := by
  revert h
  cases k <;> decide

/-- No command reports `InternalInconsistency` (R180). -/
theorem internalInconsistency_notMem_reportedKinds (i : Instr) : .internalInconsistency ∉ reportedKinds i := by
  cases i with
  | gfmt n => by_cases hn : n = 0 <;> simp [reportedKinds, hn]
  | pack3 | pack2 | pack1 | unpk4 | unpk3 | unpk2 | symat _ _ | idxof _ _ | gval _ | encode | decode =>
    simp [reportedKinds]

/-! ### The frame of an error of a command on the lanes -/

section Lanes

variable (hi : i ≠ .encode ∧ i ≠ .decode)
include hi

/-- Beside STATUS at most the lanes' marks change (R175, log 13). -/
theorem errorState_eq_of_lanes : errorState i k s = { s with
    err := k.code
    cnt := 0
    statusWritten := sourcesWritten i s
    bytes := (errorState i k s).bytes
    sextets := (errorState i k s).sextets
    symbols := (errorState i k s).symbols } := by
  obtain ⟨hne, hnd⟩ := hi
  cases i with
  | pack3 | pack2 | pack1 | unpk4 | unpk3 | unpk2 | symat _ _ | idxof _ _ | gfmt _ | gval _ => rfl
  | encode => exact absurd rfl hne
  | decode => exact absurd rfl hnd

/-- Over defined sources the marks stay too (R175). -/
theorem errorState_of_sourcesWritten (hw : sourcesWritten i s = true) : errorState i k s = s.raise true k := by
  obtain ⟨hne, hnd⟩ := hi
  cases i with
  | pack3 | pack2 | pack1 | unpk4 | unpk3 | unpk2 | symat _ _ | idxof _ _ | gfmt _ | gval _ => simp [errorState, hw]
  | encode => exact absurd rfl hne
  | decode => exact absurd rfl hnd

end Lanes

/-- No error changes the value of a lane (R175). -/
theorem errorState_values (i : Instr) (k : ErrorKind) (s : State) :
    (errorState i k s).byteValues = s.byteValues ∧ (errorState i k s).sextetValues = s.sextetValues ∧
      (errorState i k s).symbolValues = s.symbolValues := by
  cases i with
  | symat _ l => exact ⟨rfl, rfl, s.symbolValues_keepSymbol l _⟩
  | idxof _ l => exact ⟨rfl, s.sextetValues_keepSextet l _, rfl⟩
  | pack3 | pack2 | pack1 | unpk4 | unpk3 | unpk2 | gfmt _ | gval _ | encode | decode => exact ⟨rfl, rfl, rfl⟩

/-! ### The obligations -/

/-- Settles O37, by the frame of `errorState`. -/
theorem errorWritesStatusOnly : Obligations.ErrorWritesStatusOnly := by
  intro i s t h he
  obtain ⟨k, -, rfl⟩ := (exec_next_ok_or_error h).resolve_left he
  refine ⟨fun hi => ?_, ?_⟩
  · obtain ⟨hb, hx, hy⟩ := errorState_values i k s
    refine ⟨?_, hb, hx, hy, fun hw => ?_⟩
    · rw [errorState_err]
      exact errorState_eq_of_lanes hi
    · rw [errorState_of_sourcesWritten hi hw]
      exact ⟨rfl, rfl, rfl⟩
  · rintro (rfl | rfl)
    · rfl
    · rfl

/-- Settles O38: the codes of `reportedKinds`. -/
theorem kindsEachCommandReports : Obligations.KindsEachCommandReports := by
  refine ⟨fun s t h => ?_, fun i s t hwf h => ?_⟩
  · cases h; rfl
  have herr := exec_err h
  cases i with
  | gfmt n =>
    have hn : n ≠ 0 := bne_iff_ne.1 hwf
    rw [reportedKinds, if_neg hn] at herr
    exact herr.resolve_right (by simp)
  | pack3 | pack2 | pack1 | unpk4 | unpk3 | unpk2 | symat _ _ | idxof _ _ | gval _ | encode | decode =>
    simpa [reportedKinds, ErrorKind.code] using herr

/-- Settles O39: no command reports the kind with code 5. -/
theorem noInternalInconsistency : Obligations.NoInternalInconsistency := by
  intro i s t h h5
  rcases exec_err h with h0 | ⟨k, hk, hcode⟩
  · exact absurd (h0.symm.trans h5) (by decide)
  · have hint : k = .internalInconsistency := ErrorKind.eq_internalInconsistency_of_code (hcode.symm.trans h5)
    exact internalInconsistency_notMem_reportedKinds i (hint ▸ hk)

/-- Settles O6: with an empty list `fetch` completes at once. -/
theorem idleBlockHoldsState : Obligations.IdleBlockHoldsState := by
  intro s hp
  simp only [step, fetch, hp]

end Sys2Proof.Machine

/-! ## Undefined values

Where a command runs and where the missing input stops it (O43, O51); the commands on the lanes compute from values and not
from marks (O44). Two states that differ in undefined values only (`State.Alike`) stay so under each operation of a step,
hence under every command (O45) and every step (O49). At the end the step that refuses undefined values (O50). -/

namespace Sys2Proof.Machine

variable {s t s' t' : State} {i : Instr}

/-! ### Where ENCODE and DECODE stop -/

theorem exec_encode_of_none (hc : s.ilen.toNat ≤ s.config.ibufCap) (hu : s.ibuf.readUnits 0 s.ilen.toNat = none) :
    exec .encode s = .refused .neverWrittenInput := by
  simp only [exec, execEncode, if_neg (Nat.not_lt.2 hc), hu]

theorem exec_decode_of_none (hc : s.ilen.toNat ≤ s.config.ibufCap) (hl : lengthError s.ilen.toNat = none)
    (hu : s.ibuf.readUnits 0 s.ilen.toNat = none) : exec .decode s = .refused .neverWrittenInput := by
  simp only [exec, execDecode, if_neg (Nat.not_lt.2 hc), hl, hu]

/-- A command that does not run stops on its input (R199, log 3). -/
theorem exec_of_not_inputWritten (h : inputWritten i s = false) : exec i s = .refused .neverWrittenInput := by
  cases i with
  | encode =>
    obtain ⟨hc, hu⟩ : s.ilen.toNat ≤ s.config.ibufCap ∧ s.ibuf.readUnits 0 s.ilen.toNat = none := by
      simpa [inputWritten, sourcesWritten] using h
    exact exec_encode_of_none hc hu
  | decode =>
    obtain ⟨⟨hc, hl⟩, hu⟩ : (s.ilen.toNat ≤ s.config.ibufCap ∧ lengthError s.ilen.toNat = none) ∧
        s.ibuf.readUnits 0 s.ilen.toNat = none := by simpa [inputWritten, sourcesWritten] using h
    exact exec_decode_of_none hc hl hu
  | pack3 | pack2 | pack1 | unpk4 | unpk3 | unpk2 | symat _ _ | idxof _ _ | gfmt _ | gval _ => cases h

/-- Settles O43: `exec_next_iff`, and the stop where a command does not run. -/
theorem commandsRunWhereInputWritten : Obligations.CommandsRunWhereInputWritten :=
  fun i s => ⟨exec_next_iff i s, exec_of_not_inputWritten⟩

/-- Settles O51: the missing unit leaves `readUnits` without an answer. -/
theorem neverWrittenInputStops : Obligations.NeverWrittenInputStops := by
  intro s k hc hk hread
  have hu : s.ibuf.readUnits 0 s.ilen.toNat = none := Memory.readUnits_eq_none.2 ⟨k, hk, by rwa [Nat.zero_add]⟩
  exact ⟨exec_encode_of_none hc hu, fun h12 => exec_decode_of_none hc (lengthError_of_groups (by omega) h12) hu⟩

/-! ### Values without marks -/

theorem State.markWritten_sextet (s : State) (l : Lane) :
    (s.markWritten.sextets.get l).value = (s.sextets.get l).value := by cases l <;> rfl

theorem State.markWritten_symbol (s : State) (l : Lane) :
    (s.markWritten.symbols.get l).value = (s.symbols.get l).value := by cases l <;> rfl

/-- Two outcomes of a command on the lanes that agree but for marks. -/
def ValuesAgree (t u : State) : Prop :=
  t.byteValues = u.byteValues ∧ t.sextetValues = u.sextetValues ∧ t.symbolValues = u.symbolValues ∧ t.err = u.err ∧
    t.cnt = u.cnt

theorem symat_ignores_marks (a : Alphabet) (l : Lane) (s : State) :
    ∃ t u, exec (.symat a l) s = .next t ∧ exec (.symat a l) s.markWritten = .next u ∧ ValuesAgree t u := by
  have hlookup := congrArg (s.config.symbolAt a) (s.markWritten_sextet l)
  cases hy : s.config.symbolAt a (s.sextets.get l).value with
  | some y =>
    refine ⟨_, _, exec_symat_of_some hy, exec_symat_of_some (hlookup.trans hy), rfl, rfl, ?_, rfl, rfl⟩
    cases l <;> rfl
  | none =>
    refine ⟨_, _, exec_symat_of_none hy, exec_symat_of_none (hlookup.trans hy), rfl, rfl, ?_, rfl, rfl⟩
    cases l <;> rfl

theorem idxof_ignores_marks (a : Alphabet) (l : Lane) (s : State) :
    ∃ t u, exec (.idxof a l) s = .next t ∧ exec (.idxof a l) s.markWritten = .next u ∧ ValuesAgree t u := by
  have hlookup := congrArg (s.config.indexOf a) (s.markWritten_symbol l)
  cases hx : s.config.indexOf a (s.symbols.get l).value with
  | some x =>
    refine ⟨_, _, exec_idxof_of_some hx, exec_idxof_of_some (hlookup.trans hx), rfl, ?_, rfl, rfl, rfl⟩
    cases l <;> rfl
  | none =>
    refine ⟨_, _, exec_idxof_of_none hx, exec_idxof_of_none (hlookup.trans hx), rfl, ?_, rfl, rfl, rfl⟩
    cases l <;> rfl

theorem gval_ignores_marks (f : Bool) (s : State) :
    ∃ t u, exec (.gval f) s = .next t ∧ exec (.gval f) s.markWritten = .next u ∧ ValuesAgree t u := by
  rcases Nat.lt_or_ge 2 (gvalPadding f s.config s.symbolValues) with hp | hp
  · exact ⟨_, _, exec_gval_of_excess hp, exec_gval_of_excess (s := s.markWritten) hp, rfl, rfl, rfl, rfl, rfl⟩
  · cases hq : groupSextets s.config (4 - gvalPadding f s.config s.symbolValues) s.symbolValues with
    | some q => exact ⟨_, _, exec_gval_of_some hp hq, exec_gval_of_some (s := s.markWritten) hp hq, rfl, rfl, rfl, rfl, rfl⟩
    | none => exact ⟨_, _, exec_gval_of_none hp hq, exec_gval_of_none (s := s.markWritten) hp hq, rfl, rfl, rfl, rfl, rfl⟩

/-- Settles O44, command by command: every equation reads values only, and `markWritten` keeps them. -/
theorem laneCommandsIgnoreMarks : Obligations.LaneCommandsIgnoreMarks := by
  intro i s hne hnd
  cases i with
  | pack3 | pack2 | pack1 | unpk4 | unpk3 | unpk2 => exact ⟨_, _, rfl, rfl, rfl, rfl, rfl, rfl, rfl⟩
  | symat a l => exact symat_ignores_marks a l s
  | idxof a l => exact idxof_ignores_marks a l s
  | gfmt n =>
    by_cases hn : n = 0
    · subst hn
      exact ⟨_, _, rfl, rfl, rfl, rfl, rfl, rfl, rfl⟩
    · exact ⟨_, _, exec_gfmt hn s, exec_gfmt hn s.markWritten, rfl, rfl, rfl, rfl, rfl⟩
  | gval f => exact gval_ignores_marks f s
  | encode => exact absurd rfl hne
  | decode => exact absurd rfl hnd

/-! ### The marks a command leaves -/

theorem inputWritten_of_sourcesWritten (h : sourcesWritten i s = true) : inputWritten i s = true := by
  cases i with
  | encode | decode => exact h
  | pack3 | pack2 | pack1 | unpk4 | unpk3 | unpk2 | symat _ _ | idxof _ _ | gfmt _ | gval _ => rfl

/-- A buffer command that runs has its sources (R199). -/
theorem sourcesWritten_of_exec_buffer (hi : i = .encode ∨ i = .decode) (h : exec i s = .next t) :
    sourcesWritten i s = true := by
  have hin := (exec_next_iff i s).1 ⟨t, h⟩
  rcases hi with rfl | rfl
  · exact hin
  · exact hin

theorem exec_symat_next {a : Alphabet} {l : Lane} (h : exec (.symat a l) s = .next t) :
    let w := sourcesWritten (.symat a l) s
    (∃ y, t = (s.setSymbol l w y).complete w 0) ∨ t = (s.keepSymbol l w).raise w .indexRange := by
  cases hy : s.config.symbolAt a (s.sextets.get l).value with
  | some y => rw [exec_symat_of_some hy] at h; cases h; exact .inl ⟨y, rfl⟩
  | none => rw [exec_symat_of_none hy] at h; cases h; exact .inr rfl

theorem exec_idxof_next {a : Alphabet} {l : Lane} (h : exec (.idxof a l) s = .next t) :
    let w := sourcesWritten (.idxof a l) s
    (∃ x, t = (s.setSextet l w x).complete w 0) ∨ t = (s.keepSextet l w).raise w .symbolNotFound := by
  cases hx : s.config.indexOf a (s.symbols.get l).value with
  | some x => rw [exec_idxof_of_some hx] at h; cases h; exact .inl ⟨x, rfl⟩
  | none => rw [exec_idxof_of_none hx] at h; cases h; exact .inr rfl

theorem exec_gval_next {f : Bool} (h : exec (.gval f) s = .next t) :
    let w := sourcesWritten (.gval f) s
    (∃ q b n, t = ((s.setSextets w q).setBytes w b).complete w n) ∨ ∃ k, t = (s.keepGroup w).raise w k := by
  rcases Nat.lt_or_ge 2 (gvalPadding f s.config s.symbolValues) with hp | hp
  · rw [exec_gval_of_excess hp] at h; cases h; exact .inr ⟨_, rfl⟩
  · cases hq : groupSextets s.config (4 - gvalPadding f s.config s.symbolValues) s.symbolValues with
    | some q => rw [exec_gval_of_some hp hq] at h; cases h; exact .inl ⟨_, _, _, rfl⟩
    | none => rw [exec_gval_of_none hp hq] at h; cases h; exact .inr ⟨_, rfl⟩

theorem State.setSextets_written (w : Bool) (v : Quad Sextet) (s : State) (l : Lane) :
    ((s.setSextets w v).sextets.get l).written = w := by cases l <;> rfl

theorem State.setSymbols_written (w : Bool) (v : Quad Symbol) (s : State) (l : Lane) :
    ((s.setSymbols w v).symbols.get l).written = w := by cases l <;> rfl

theorem State.keepGroup_sextets_written (w : Bool) (s : State) (l : Lane) :
    ((s.keepGroup w).sextets.get l).written = ((s.sextets.get l).written && w) := by cases l <;> rfl

/-- STATUS gets the mark of the sources, with an error and without; the destinations too, where it is that of an undefined
value (R199, log 13). -/
theorem exec_marks (h : exec i s = .next t) :
    t.statusWritten = sourcesWritten i s ∧ (sourcesWritten i s = false → DestinationsUndefined i t) := by
  cases i with
  | pack3 =>
    rw [exec_pack3] at h; cases h
    exact ⟨rfl, fun hw l => (State.setSextets_written _ _ s l).trans hw⟩
  | pack2 =>
    rw [exec_pack2] at h; cases h
    exact ⟨rfl, fun hw l => (State.setSextets_written _ _ s l).trans hw⟩
  | pack1 =>
    rw [exec_pack1] at h; cases h
    exact ⟨rfl, fun hw l => (State.setSextets_written _ _ s l).trans hw⟩
  | unpk4 => rw [exec_unpk4] at h; cases h; exact ⟨rfl, fun hw => ⟨hw, hw, hw⟩⟩
  | unpk3 => rw [exec_unpk3] at h; cases h; exact ⟨rfl, fun hw => ⟨hw, hw, hw⟩⟩
  | unpk2 => rw [exec_unpk2] at h; cases h; exact ⟨rfl, fun hw => ⟨hw, hw, hw⟩⟩
  | symat a l =>
    rcases exec_symat_next h with ⟨y, rfl⟩ | rfl
    · exact ⟨rfl, fun hw => by simp [DestinationsUndefined, hw]⟩
    · exact ⟨rfl, fun hw => by simp [DestinationsUndefined, hw]⟩
  | idxof a l =>
    rcases exec_idxof_next h with ⟨x, rfl⟩ | rfl
    · exact ⟨rfl, fun hw => by simp [DestinationsUndefined, hw]⟩
    · exact ⟨rfl, fun hw => by simp [DestinationsUndefined, hw]⟩
  | gfmt n =>
    by_cases hn : n = 0
    · subst hn; cases h; exact ⟨rfl, nofun⟩
    · rw [exec_gfmt hn] at h; cases h
      exact ⟨rfl, fun hw l => ⟨(State.setSextets_written _ _ s l).trans hw, (State.setSymbols_written _ _ s l).trans hw⟩⟩
  | gval f =>
    rcases exec_gval_next h with ⟨q, b, n, rfl⟩ | ⟨k, rfl⟩
    · exact ⟨rfl, fun hw => ⟨⟨hw, hw, hw⟩, fun l => (State.setSextets_written _ _ s l).trans hw⟩⟩
    · refine ⟨rfl, fun hw => ?_⟩
      rw [hw]
      exact ⟨⟨Bool.and_false _, Bool.and_false _, Bool.and_false _⟩,
        fun l => (State.keepGroup_sextets_written _ s l).trans (Bool.and_false _)⟩
  | encode =>
    rw [sourcesWritten_of_exec_buffer (.inl rfl) h]
    rcases execEncode_next h with ⟨-, rfl⟩ | ⟨-, _, -, rfl⟩ <;> exact ⟨rfl, nofun⟩
  | decode =>
    rw [sourcesWritten_of_exec_buffer (.inr rfl) h]
    rcases execDecode_next h with ⟨-, rfl⟩ | ⟨-, _, -, rfl⟩ | ⟨-, -, _, -, ⟨_, -, rfl⟩ | ⟨_, -, rfl⟩⟩ <;>
      exact ⟨rfl, nofun⟩

/-- Where the destinations of a command hold no defined value, a lane is as before or holds none. -/
theorem LanesKept.eq_or_unwritten (hk : LanesKept i s t) (hd : DestinationsUndefined i t) :
    (t.bytes = s.bytes ∨ t.bytes.l0.written = false ∧ t.bytes.l1.written = false ∧ t.bytes.l2.written = false) ∧
    (∀ l, t.sextets.get l = s.sextets.get l ∨ (t.sextets.get l).written = false) ∧
    ∀ l, t.symbols.get l = s.symbols.get l ∨ (t.symbols.get l).written = false := by
  cases i with
  | pack3 | pack2 | pack1 =>
    obtain ⟨hb, hy⟩ := hk
    exact ⟨.inl hb, fun l => .inr (hd l), fun l => .inl (by rw [hy])⟩
  | unpk4 | unpk3 | unpk2 =>
    obtain ⟨hx, hy⟩ := hk
    exact ⟨.inr hd, fun l => .inl (by rw [hx]), fun l => .inl (by rw [hy])⟩
  | symat a m =>
    obtain ⟨hb, hx, hy⟩ := hk
    refine ⟨.inl hb, fun l => .inl (by rw [hx]), fun l => ?_⟩
    by_cases hl : l = m
    · subst hl; exact .inr hd
    · exact .inl (hy l hl)
  | idxof a m =>
    obtain ⟨hb, hy, hx⟩ := hk
    refine ⟨.inl hb, fun l => ?_, fun l => .inl (by rw [hy])⟩
    by_cases hl : l = m
    · subst hl; exact .inr hd
    · exact .inl (hx l hl)
  | gfmt n => exact ⟨.inl hk, fun l => .inr (hd l).1, fun l => .inr (hd l).2⟩
  | gval f =>
    obtain ⟨hb, hx⟩ := hd
    exact ⟨.inr hb, fun l => .inr (hx l), fun l => .inl (by rw [show t.symbols = s.symbols from hk])⟩
  | encode | decode =>
    obtain ⟨hb, hx, hy⟩ := hk
    exact ⟨.inl hb, fun l => .inl (by rw [hx]), fun l => .inl (by rw [hy])⟩

/-! ### States that differ in undefined values, lane by lane -/

theorem LaneReg.Alike.of_eq {w : Nat} {x y : LaneReg w} (h : x = y) : x.Alike y := h ▸ ⟨rfl, fun _ => rfl⟩

theorem LaneReg.alike_of_unwritten {w : Nat} {x y : LaneReg w} (hx : x.written = false) (hy : y.written = false) :
    x.Alike y := ⟨hx.trans hy.symm, by simp [hx]⟩

/-- `LaneReg.Alike`, for the three byte lanes. -/
def BytesAlike (b b' : Triple (LaneReg 8)) : Prop := b.l0.Alike b'.l0 ∧ b.l1.Alike b'.l1 ∧ b.l2.Alike b'.l2

/-- `LaneReg.Alike`, for the lanes of a file of four. -/
def QuadAlike {w : Nat} (q q' : Quad (LaneReg w)) : Prop := ∀ l, (q.get l).Alike (q'.get l)

theorem BytesAlike.of_eq {b b' : Triple (LaneReg 8)} (h : b = b') : BytesAlike b b' :=
  h ▸ ⟨.of_eq rfl, .of_eq rfl, .of_eq rfl⟩

theorem bytesAlike_of_unwritten {b b' : Triple (LaneReg 8)}
    (h : b.l0.written = false ∧ b.l1.written = false ∧ b.l2.written = false)
    (h' : b'.l0.written = false ∧ b'.l1.written = false ∧ b'.l2.written = false) : BytesAlike b b' := by
  obtain ⟨h0, h1, h2⟩ := h
  obtain ⟨h0', h1', h2'⟩ := h'
  exact ⟨LaneReg.alike_of_unwritten h0 h0', LaneReg.alike_of_unwritten h1 h1', LaneReg.alike_of_unwritten h2 h2'⟩

theorem QuadAlike.of_eq {w : Nat} {q q' : Quad (LaneReg w)} (h : q = q') : QuadAlike q q' := h ▸ fun _ => .of_eq rfl

theorem QuadAlike.lanes {w : Nat} {q q' : Quad (LaneReg w)} (h : QuadAlike q q') :
    q.l0.Alike q'.l0 ∧ q.l1.Alike q'.l1 ∧ q.l2.Alike q'.l2 ∧ q.l3.Alike q'.l3 := ⟨h .l0, h .l1, h .l2, h .l3⟩

theorem QuadAlike.set {w : Nat} {q q' : Quad (LaneReg w)} (h : QuadAlike q q') (l : Lane) (x : LaneReg w) :
    QuadAlike (q.set l x) (q'.set l x) := by
  intro m
  by_cases hm : m = l
  · subst hm
    rw [Quad.get_set_same, Quad.get_set_same]
    exact .of_eq rfl
  · rw [Quad.get_set_other _ _ hm, Quad.get_set_other _ _ hm]
    exact h m

/-- The lanes of two states differ at most in undefined values. -/
structure LanesAlike (s t : State) : Prop where
  bytes : BytesAlike s.bytes t.bytes
  sextets : QuadAlike s.sextets t.sextets
  symbols : QuadAlike s.symbols t.symbols

theorem State.Alike.lanes (h : s.Alike t) : LanesAlike s t := ⟨⟨h.byte0, h.byte1, h.byte2⟩, h.sextet, h.symbol⟩

theorem LanesAlike.of_same_lanes (h : LanesAlike s t)
    (hs : s'.bytes = s.bytes ∧ s'.sextets = s.sextets ∧ s'.symbols = s.symbols)
    (ht : t'.bytes = t.bytes ∧ t'.sextets = t.sextets ∧ t'.symbols = t.symbols) : LanesAlike s' t' := by
  obtain ⟨hb, hx, hy⟩ := hs
  obtain ⟨hb', hx', hy'⟩ := ht
  exact ⟨hb ▸ hb' ▸ h.bytes, hx ▸ hx' ▸ h.sextets, hy ▸ hy' ▸ h.symbols⟩

/-- The destination lanes of a command differ at most in undefined values. -/
def DestinationsAlike (i : Instr) (s t : State) : Prop :=
  match i with
  | .pack3 | .pack2 | .pack1 => QuadAlike s.sextets t.sextets
  | .unpk4 | .unpk3 | .unpk2 => BytesAlike s.bytes t.bytes
  | .symat _ l => (s.symbols.get l).Alike (t.symbols.get l)
  | .idxof _ l => (s.sextets.get l).Alike (t.sextets.get l)
  | .gfmt _ => QuadAlike s.sextets t.sextets ∧ QuadAlike s.symbols t.symbols
  | .gval _ => BytesAlike s.bytes t.bytes ∧ QuadAlike s.sextets t.sextets
  | .encode | .decode => True

theorem DestinationsUndefined.alike (hs : DestinationsUndefined i s) (ht : DestinationsUndefined i t) :
    DestinationsAlike i s t := by
  cases i with
  | pack3 | pack2 | pack1 => exact fun l => LaneReg.alike_of_unwritten (hs l) (ht l)
  | unpk4 | unpk3 | unpk2 => exact bytesAlike_of_unwritten hs ht
  | symat _ l | idxof _ l => exact LaneReg.alike_of_unwritten hs ht
  | gfmt _ =>
    exact ⟨fun l => LaneReg.alike_of_unwritten (hs l).1 (ht l).1, fun l => LaneReg.alike_of_unwritten (hs l).2 (ht l).2⟩
  | gval _ =>
    obtain ⟨hb, hx⟩ := hs
    obtain ⟨hb', hx'⟩ := ht
    exact ⟨bytesAlike_of_unwritten hb hb', fun l => LaneReg.alike_of_unwritten (hx l) (hx' l)⟩
  | encode | decode => trivial

theorem SameResults.destinationsAlike (h : SameResults i s t) (he : s.err = 0) : DestinationsAlike i s t := by
  obtain ⟨-, -, -, hd⟩ := h
  cases i with
  | pack3 | pack2 | pack1 => exact .of_eq hd
  | unpk4 | unpk3 | unpk2 => exact .of_eq hd
  | symat _ l | idxof _ l => exact .of_eq (hd he)
  | gfmt _ => exact ⟨.of_eq (hd he).1, .of_eq (hd he).2⟩
  | gval _ => exact ⟨.of_eq (hd he).2, .of_eq (hd he).1⟩
  | encode | decode => trivial

/-- A command that leaves its destinations alike leaves all lanes so, since it keeps the others (R40). -/
theorem LanesAlike.of_kept (h : LanesAlike s t) (hs : LanesKept i s s') (ht : LanesKept i t t')
    (hd : DestinationsAlike i s' t') : LanesAlike s' t' := by
  cases i with
  | pack3 | pack2 | pack1 =>
    obtain ⟨hb, hy⟩ := hs
    obtain ⟨hb', hy'⟩ := ht
    exact ⟨hb ▸ hb' ▸ h.bytes, hd, hy ▸ hy' ▸ h.symbols⟩
  | unpk4 | unpk3 | unpk2 =>
    obtain ⟨hx, hy⟩ := hs
    obtain ⟨hx', hy'⟩ := ht
    exact ⟨hd, hx ▸ hx' ▸ h.sextets, hy ▸ hy' ▸ h.symbols⟩
  | symat a l =>
    obtain ⟨hb, hx, hy⟩ := hs
    obtain ⟨hb', hx', hy'⟩ := ht
    refine ⟨hb ▸ hb' ▸ h.bytes, hx ▸ hx' ▸ h.sextets, fun m => ?_⟩
    by_cases hm : m = l
    · subst hm; exact hd
    · rw [hy m hm, hy' m hm]; exact h.symbols m
  | idxof a l =>
    obtain ⟨hb, hy, hx⟩ := hs
    obtain ⟨hb', hy', hx'⟩ := ht
    refine ⟨hb ▸ hb' ▸ h.bytes, fun m => ?_, hy ▸ hy' ▸ h.symbols⟩
    by_cases hm : m = l
    · subst hm; exact hd
    · rw [hx m hm, hx' m hm]; exact h.sextets m
  | gfmt n =>
    have hb : s'.bytes = s.bytes := hs
    have hb' : t'.bytes = t.bytes := ht
    exact ⟨hb ▸ hb' ▸ h.bytes, hd.1, hd.2⟩
  | gval f =>
    have hy : s'.symbols = s.symbols := hs
    have hy' : t'.symbols = t.symbols := ht
    exact ⟨hd.1, hd.2, hy ▸ hy' ▸ h.symbols⟩
  | encode | decode => exact h.of_same_lanes hs ht

/-! ### Commands from two such states -/

theorem State.Alike.sourcesWritten_eq (h : s.Alike t) (i : Instr) : sourcesWritten i s = sourcesWritten i t := by
  obtain ⟨⟨⟨hb0, -⟩, ⟨hb1, -⟩, ⟨hb2, -⟩⟩, hx, hy⟩ := h.lanes
  obtain ⟨⟨hx0, -⟩, ⟨hx1, -⟩, ⟨hx2, -⟩, ⟨hx3, -⟩⟩ := hx.lanes
  obtain ⟨⟨hy0, -⟩, ⟨hy1, -⟩, ⟨hy2, -⟩, ⟨hy3, -⟩⟩ := hy.lanes
  cases i with
  | symat _ l => exact (hx l).1
  | idxof _ l => exact (hy l).1
  | pack3 | pack2 | pack1 | unpk4 | unpk3 | unpk2 | gfmt _ | gval _ =>
    simp only [sourcesWritten, hb0, hb1, hb2, hx0, hx1, hx2, hx3, hy0, hy1, hy2, hy3]
  | encode | decode => simp only [sourcesWritten, h.config, h.ilen, h.ibuf]

/-- Where the sources hold defined values, the two states agree on the inputs of a command; GFMT 0 needs none. -/
theorem State.Alike.sameInputs (h : s.Alike t) (hwf : i.wellFormed = true) (hw : sourcesWritten i s = true) :
    SameInputs i s t := by
  refine ⟨h.config, ?_⟩
  obtain ⟨⟨⟨-, hb0⟩, ⟨-, hb1⟩, ⟨-, hb2⟩⟩, hx, hy⟩ := h.lanes
  obtain ⟨⟨-, hx0⟩, ⟨-, hx1⟩, ⟨-, hx2⟩, ⟨-, hx3⟩⟩ := hx.lanes
  obtain ⟨⟨-, hy0⟩, ⟨-, hy1⟩, ⟨-, hy2⟩, ⟨-, hy3⟩⟩ := hy.lanes
  cases i with
  | symat _ l => exact (hx l).2 hw
  | idxof _ l => exact (hy l).2 hw
  | pack3 | pack2 | pack1 | unpk4 | unpk3 | unpk2 | gval _ =>
    simp only [sourcesWritten, Bool.and_eq_true] at hw
    simp [State.byteValues, State.sextetValues, State.symbolValues, hw, hb0, hb1, hb2, hx0, hx1, hx2, hx3, hy0, hy1, hy2,
      hy3]
  | gfmt n =>
    rw [sourcesWritten_gfmt s (bne_iff_ne.1 hwf), State.bytesWritten] at hw
    obtain ⟨⟨h0, h1⟩, h2⟩ : (s.bytes.l0.written = true ∧ (n.toNat < 2 ∨ s.bytes.l1.written = true)) ∧
        (n.toNat < 3 ∨ s.bytes.l2.written = true) := by simpa using hw
    exact ⟨hb0 h0, fun hn => hb1 (h1.resolve_left (by omega)), fun hn => hb2 (h2.resolve_left (by omega))⟩
  | encode | decode => exact ⟨h.ilen, fun k _ => by rw [h.ibuf]⟩

theorem State.Alike.setPending (h : s.Alike t) (l : List HostEvent) :
    State.Alike { s with pending := l } { t with pending := l } := { h with pending := rfl }

theorem State.Alike.raise (h : s.Alike t) (w : Bool) (k : ErrorKind) : (s.raise w k).Alike (t.raise w k) :=
  { h with statusMark := rfl, err := fun _ => rfl, cnt := fun _ => rfl }

theorem State.Alike.withLanes (h : s.Alike t) {b b' : Triple (LaneReg 8)} {x x' : Quad (LaneReg 6)}
    {y y' : Quad (LaneReg 24)} (hb : BytesAlike b b') (hx : QuadAlike x x') (hy : QuadAlike y y') :
    State.Alike { s with bytes := b, sextets := x, symbols := y }
      { t with bytes := b', sextets := x', symbols := y' } := by
  obtain ⟨h0, h1, h2⟩ := hb
  exact { h with byte0 := h0, byte1 := h1, byte2 := h2, sextet := hx, symbol := hy }

/-- An error over defined sources leaves every lane as it was (R175). -/
theorem exec_keeps_lanes_of_err (hw : sourcesWritten i s = true) (h : exec i s = .next t) (he : t.err ≠ 0) :
    t.bytes = s.bytes ∧ t.sextets = s.sextets ∧ t.symbols = s.symbols := by
  by_cases hi : i ≠ .encode ∧ i ≠ .decode
  · obtain ⟨hlanes, -⟩ := errorWritesStatusOnly i s t h he
    obtain ⟨-, -, -, -, hkeep⟩ := hlanes hi
    exact hkeep hw
  · have hk := exec_lanesKept h
    obtain rfl | rfl : i = .encode ∨ i = .decode := by tauto
    · exact hk
    · exact hk

/-- What is left to show of the results of a command: the lanes, and STATUS and the output where they are defined. -/
theorem State.Alike.of_exec (h : s.Alike t) (hs : exec i s = .next s') (ht : exec i t = .next t')
    (hl : LanesAlike s' t') (hst : sourcesWritten i s = true → s'.err = t'.err ∧ s'.cnt = t'.cnt)
    (hout : i = .encode ∨ i = .decode → s'.olen = t'.olen ∧ s'.obuf = t'.obuf) : s'.Alike t' := by
  obtain ⟨hc, hilen, hibuf, hpend, hret, -⟩ := exec_keeps_inputs hs
  obtain ⟨hc', hilen', hibuf', hpend', hret', -⟩ := exec_keeps_inputs ht
  obtain ⟨hmark, -⟩ := exec_marks hs
  obtain ⟨hmark', -⟩ := exec_marks ht
  have houtput : s'.olen = t'.olen ∧ s'.obuf = t'.obuf := by
    by_cases hi : i ≠ .encode ∧ i ≠ .decode
    · obtain ⟨ho, hb⟩ := exec_keeps_output hs hi
      obtain ⟨ho', hb'⟩ := exec_keeps_output ht hi
      rw [ho, hb, ho', hb']
      exact ⟨h.olen, h.obuf⟩
    · exact hout (by tauto)
  obtain ⟨⟨h0, h1, h2⟩, hx, hy⟩ := hl
  exact {
    config := by rw [hc, hc', h.config]
    byte0 := h0
    byte1 := h1
    byte2 := h2
    sextet := hx
    symbol := hy
    statusMark := by rw [hmark, hmark', h.sourcesWritten_eq]
    err := fun hw => (hst (hmark ▸ hw)).1
    cnt := fun hw => (hst (hmark ▸ hw)).2
    ilen := by rw [hilen, hilen', h.ilen]
    olen := houtput.1
    ibuf := by rw [hibuf, hibuf', h.ibuf]
    obuf := houtput.2
    pending := by rw [hpend, hpend', h.pending]
    returned := by rw [hret, hret']; exact h.returned }

theorem SameResults.output (h : SameResults i s t) (hi : i = .encode ∨ i = .decode) :
    s.olen = t.olen ∧ s.obuf = t.obuf := by
  obtain ⟨-, -, -, hd⟩ := h
  obtain rfl | rfl := hi
  · exact hd
  · exact hd

/-- Over defined sources the results are the same. -/
theorem State.Alike.exec_of_written (h : s.Alike t) (hwf : i.wellFormed = true) (hw : sourcesWritten i s = true)
    (hs : exec i s = .next s') : ∃ t', exec i t = .next t' ∧ s'.Alike t' := by
  have hw' : sourcesWritten i t = true := (h.sourcesWritten_eq i).symm.trans hw
  obtain ⟨t', ht, hsame⟩ := resultsDependOnNamedInputs i s t s' (hw.trans hw'.symm) (h.sameInputs hwf hw) hs
  have ⟨herr, hcnt, _⟩ := hsame
  refine ⟨t', ht, h.of_exec hs ht ?_ (fun _ => ⟨herr, hcnt⟩) hsame.output⟩
  by_cases he : s'.err = 0
  · exact h.lanes.of_kept (exec_lanesKept hs) (exec_lanesKept ht) (hsame.destinationsAlike he)
  · exact h.lanes.of_same_lanes (exec_keeps_lanes_of_err hw hs he) (exec_keeps_lanes_of_err hw' ht (herr ▸ he))

/-- Over an undefined source STATUS and the destinations are undefined, whichever outcome the values lead to. -/
theorem State.Alike.exec_of_unwritten (h : s.Alike t) (hw : sourcesWritten i s = false) (hs : exec i s = .next s') :
    ∃ t', exec i t = .next t' ∧ s'.Alike t' := by
  have hw' : sourcesWritten i t = false := (h.sourcesWritten_eq i).symm.trans hw
  have hi : ¬ (i = .encode ∨ i = .decode) := fun hi => by simp [sourcesWritten_of_exec_buffer hi hs] at hw
  obtain ⟨t', ht⟩ : ∃ t', exec i t = .next t' := by
    rw [exec_next_iff]
    cases i with
    | encode => exact absurd (.inl rfl) hi
    | decode => exact absurd (.inr rfl) hi
    | pack3 | pack2 | pack1 | unpk4 | unpk3 | unpk2 | symat _ _ | idxof _ _ | gfmt _ | gval _ => rfl
  obtain ⟨-, hd⟩ := exec_marks hs
  obtain ⟨-, hd'⟩ := exec_marks ht
  refine ⟨t', ht, h.of_exec hs ht ?_ (fun hw₁ => by simp [hw] at hw₁) fun hb => absurd hb hi⟩
  exact h.lanes.of_kept (exec_lanesKept hs) (exec_lanesKept ht) ((hd hw).alike (hd' hw'))

theorem Instr.eq_gfmt_zero_of_not_wellFormed (h : i.wellFormed = false) : i = .gfmt 0 := by
  cases i with
  | gfmt n => exact congrArg _ (by simpa [Instr.wellFormed] using h)
  | pack3 | pack2 | pack1 | unpk4 | unpk3 | unpk2 | symat _ _ | idxof _ _ | gval _ | encode | decode => cases h

theorem State.Alike.exec (h : s.Alike t) (hs : exec i s = .next s') : ∃ t', exec i t = .next t' ∧ s'.Alike t' := by
  cases hwf : i.wellFormed with
  | false =>
    obtain rfl := Instr.eq_gfmt_zero_of_not_wellFormed hwf
    cases hs
    exact ⟨_, exec_gfmt_zero t, h.raise true .illegalCommand⟩
  | true =>
    cases hw : sourcesWritten i s with
    | true => exact h.exec_of_written hwf hw hs
    | false => exact h.exec_of_unwritten hw hs

/-- Settles O45: the marks by `exec_marks`, the lanes a command keeps by `exec_lanesKept`, the two states by
`State.Alike.exec`. -/
theorem undefinedLanesStayMarked : Obligations.UndefinedLanesStayMarked := by
  refine ⟨fun i s t hw h => ?_, fun i s t s' h hs => h.exec hs⟩
  obtain ⟨hmark, hd⟩ := exec_marks h
  obtain ⟨hb, hx, hy⟩ := (exec_lanesKept h).eq_or_unwritten (hd hw)
  refine ⟨hmark.trans hw, hd hw, ?_, ?_, ?_, hx, hy⟩
  · exact hb.imp (congrArg Triple.l0) fun ⟨h0, _, _⟩ => h0
  · exact hb.imp (congrArg Triple.l1) fun ⟨_, h1, _⟩ => h1
  · exact hb.imp (congrArg Triple.l2) fun ⟨_, _, h2⟩ => h2

/-! ### Host events from two such states -/

theorem PortValue.Alike.refl (v : PortValue) : v.Alike v := .inl rfl

theorem State.Alike.return (h : s.Alike t) {v v' : PortValue} (hv : v.Alike v') : (s.return v).Alike (t.return v') :=
  { h with returned := .cons hv h.returned }

theorem State.applyReset_unwritten (s : State) : (∀ l, (s.applyReset.sextets.get l).written = false) ∧
    ∀ l, (s.applyReset.symbols.get l).written = false := State.afterReset_unwritten s.config _

/-- After a reset every lane is undefined, so the free values do not matter (R41, log 9). -/
theorem State.Alike.applyReset (h : s.Alike t) : s.applyReset.Alike t.applyReset where
  config := h.config
  byte0 := LaneReg.alike_of_unwritten rfl rfl
  byte1 := LaneReg.alike_of_unwritten rfl rfl
  byte2 := LaneReg.alike_of_unwritten rfl rfl
  sextet l := LaneReg.alike_of_unwritten (s.applyReset_unwritten.1 l) (t.applyReset_unwritten.1 l)
  symbol l := LaneReg.alike_of_unwritten (s.applyReset_unwritten.2 l) (t.applyReset_unwritten.2 l)
  statusMark := rfl
  err _ := rfl
  cnt _ := rfl
  ilen := rfl
  olen := rfl
  ibuf := rfl
  obuf := rfl
  pending := h.pending
  returned := h.returned

theorem State.Alike.regWrite (h : s.Alike t) (r : PortReg) (v : Word) : (regWrite r v s).Alike (regWrite r v t) := by
  cases r with
  | cmd | status | olen => exact h
  | breg => exact h.withLanes (.of_eq rfl) h.lanes.sextets h.lanes.symbols
  | sreg => exact h.withLanes h.lanes.bytes (.of_eq rfl) h.lanes.symbols
  | symbol l => exact h.withLanes h.lanes.bytes h.lanes.sextets (h.lanes.symbols.set l _)
  | ilen => exact { h with ilen := rfl }

theorem State.Alike.portWrite (h : s.Alike t) (g : PortTarget) (v : Word) : (portWrite g v s).Alike (portWrite g v t) := by
  cases g with
  | reg r => exact h.regWrite r v
  | input i => exact { h with ibuf := by simp only [Machine.portWrite, h.ibuf] }
  | output i => exact h

theorem State.Alike.regDefined_eq (h : s.Alike t) (r : PortReg) : regDefined r s = regDefined r t := by
  cases r with
  | cmd | ilen | olen => rfl
  | status => exact h.statusMark
  | breg => rw [regDefined_breg, regDefined_breg, h.sourcesWritten_eq]
  | sreg => rw [regDefined_sreg, regDefined_sreg, h.sourcesWritten_eq]
  | symbol l => exact (h.symbol l).1

/-- A register that shows defined values shows the same word. -/
theorem State.Alike.regRead_eq (h : s.Alike t) {r : PortReg} (hd : regDefined r s = true) :
    regRead r s = regRead r t := by
  cases r with
  | cmd => rfl
  | status => simp only [regRead, State.statusWord, h.err hd, h.cnt hd]
  | breg =>
    obtain ⟨-, hv⟩ := h.sameInputs (i := .pack3) rfl ((regDefined_breg s).symm.trans hd)
    obtain ⟨h0, h1, h2⟩ := Triple.mk.inj hv
    simp only [regRead, bregWord, h0, h1, h2]
  | sreg =>
    obtain ⟨-, hv⟩ := h.sameInputs (i := .unpk4) rfl ((regDefined_sreg s).symm.trans hd)
    obtain ⟨h0, h1, h2, h3⟩ := Quad.mk.inj hv
    simp only [regRead, sregWord, h0, h1, h2, h3]
  | symbol l => exact congrArg (0#8 ++ ·) ((h.symbol l).2 hd)
  | ilen => exact h.ilen
  | olen => exact h.olen

theorem State.Alike.regAnswer (h : s.Alike t) (r : PortReg) : (regAnswer r s).Alike (regAnswer r t) := by
  rw [Machine.regAnswer, Machine.regAnswer, ← h.regDefined_eq r]
  cases hd : regDefined r s with
  | true => exact .inl (by rw [h.regRead_eq hd])
  | false => exact .inr ⟨_, _, rfl, rfl⟩

theorem State.Alike.portRead (h : s.Alike t) {offset : Nat} {g : PortTarget} (hs : portRead offset g s = .next s') :
    ∃ t', portRead offset g t = .next t' ∧ s'.Alike t' := by
  cases g with
  | reg r => cases hs; exact ⟨_, rfl, h.return (h.regAnswer r)⟩
  | input i =>
    cases hv : s.ibuf.read i with
    | none => cases (portRead_input_of_none hv).symm.trans hs
    | some v =>
      cases (portRead_input_of_some hv).symm.trans hs
      exact ⟨_, portRead_input_of_some (h.ibuf ▸ hv), h.return (.refl _)⟩
  | output i =>
    cases hv : s.obuf.read i with
    | none => cases (portRead_output_of_none hv).symm.trans hs
    | some v =>
      cases (portRead_output_of_some hv).symm.trans hs
      exact ⟨_, portRead_output_of_some (h.obuf ▸ hv), h.return (.refl _)⟩

/-- A read that answers is one of a mapped place by its width (R52, R57). -/
theorem portTarget_of_step_read {rest : List HostEvent} {offset width : Nat} (hp : s.pending = .read offset width :: rest)
    (hs : step s = .next s') : ∃ g, portTarget s.config offset = some g ∧ g.width = width := by
  cases hg : portTarget s.config offset with
  | none => cases (step_unmapped (v := 0) hg (.inl hp)).symm.trans hs
  | some g =>
    refine ⟨g, rfl, ?_⟩
    by_contra hw
    cases (step_wrongWidth (v := 0) hg hw (.inl hp)).symm.trans hs

theorem State.Alike.step_read (h : s.Alike t) {rest : List HostEvent} {offset width : Nat}
    (hp : s.pending = .read offset width :: rest) (hs : step s = .next s') :
    ∃ t', step t = .next t' ∧ s'.Alike t' := by
  obtain ⟨g, hg, hw⟩ := portTarget_of_step_read hp hs
  rw [Machine.step_read hg hw hp] at hs
  rw [Machine.step_read (h.config ▸ hg) hw (h.pending ▸ hp)]
  exact (h.setPending rest).portRead hs

theorem State.Alike.step (h : s.Alike t) (hs : step s = .next s') : ∃ t', step t = .next t' ∧ s'.Alike t' := by
  rcases step_next_cases hs with ⟨hp, rfl⟩ | ⟨e, rest, hp, hcase⟩
  · exact ⟨t, idleBlockHoldsState t (h.pending ▸ hp), h⟩
  have hpt : t.pending = e :: rest := h.pending ▸ hp
  have hrest := h.setPending rest
  rcases hcase with ⟨rfl, rfl⟩ | ⟨_, _, v, rfl, -⟩ | ⟨offset, width, v, g, rfl, hg, hw, hcmd, rfl⟩ |
    ⟨offset, w, i, rfl, hg, hd, hexec⟩ | ⟨offset, w, r, rfl, hg, hd, rfl⟩
  · exact ⟨_, step_reset hpt, hrest.applyReset⟩
  · exact h.step_read hp hs
  · exact ⟨_, step_write (h.config ▸ hg) hw hcmd hpt, hrest.portWrite g v⟩
  · obtain rfl := offset_eq_zero_of_cmd hg
    rw [step_command hd hpt]
    exact hrest.exec hexec
  · obtain rfl := offset_eq_zero_of_cmd hg
    exact ⟨_, step_illegal hd hpt, hrest.raise true .illegalCommand⟩

/-! ### A defined result needs a step that runs -/

theorem eventRuns_of_eventSafe {e : HostEvent} (h : eventSafe e s = true) : eventRuns e s = true := by
  cases e with
  | reset => rfl
  | read offset width =>
    by_cases hm : offset ∈ registerOffsets
    · simp only [eventSafe, if_pos hm, Bool.and_eq_true] at h
      simp only [eventRuns, if_pos hm, h.1]
    · simpa only [eventSafe, eventRuns, if_neg hm] using h
  | write offset width v =>
    by_cases hm : offset ∈ registerOffsets
    · simp only [eventSafe, eventRuns, if_pos hm, Bool.and_eq_true, Bool.or_eq_true] at h ⊢
      refine ⟨h.1, h.2.imp_right fun hc => ?_⟩
      cases hd : decode v with
      | ok i =>
        simp only [hd] at hc ⊢
        exact inputWritten_of_sourcesWritten hc
      | error r => rfl
    · simpa only [eventSafe, eventRuns, if_neg hm] using h

theorem stepRuns_of_stepSafe (h : stepSafe s = true) : stepRuns s = true := by
  cases hp : s.pending with
  | nil => simp only [stepRuns, hp]
  | cons e rest =>
    simp only [stepSafe, stepRuns, hp] at h ⊢
    exact eventRuns_of_eventSafe h

/-- Settles O49, by `State.Alike.step`, and by O48 for the steps that run. -/
theorem stepKeepsUndefinedValuesMarked : Obligations.StepKeepsUndefinedValuesMarked := fun s _ h =>
  ⟨fun _ hs => h.step hs, fun hsafe => (stepAnswersNextExactlyWhereItRuns s).2 (stepRuns_of_stepSafe hsafe)⟩

/-! ### The step that refuses undefined values -/

section Refusing

variable {e : HostEvent} {rest : List HostEvent} {offset : Nat} {w : Word}

theorem refusingStep_eq_none_iff (hp : s.pending = e :: rest) : refusingStep s = none ↔ eventUndefined e s = true := by
  simp only [refusingStep, hp, ite_eq_left_iff, reduceCtorEq, imp_false, Bool.not_eq_true, Bool.not_eq_false]

theorem refusingStep_of_defined (hp : s.pending = e :: rest) (hd : eventUndefined e s = false) :
    refusingStep s = some (step s) := by
  simp only [refusingStep, hp, hd, Bool.false_eq_true, if_false]

theorem refusingStep_of_idle (hp : s.pending = []) : refusingStep s = some (step s) := by
  simp only [refusingStep, hp]

/-- Where `refusingStep` gives a transition, it is `step`, and the next event names defined values only. -/
theorem eq_step_of_refusingStep {o : Host.Outcome State Fault Refusal} (h : refusingStep s = some o) :
    o = step s ∧ ∀ e rest, s.pending = e :: rest → eventUndefined e s = false := by
  cases hp : s.pending with
  | nil => exact ⟨Option.some.inj (h.symm.trans (refusingStep_of_idle hp)), nofun⟩
  | cons e rest =>
    have hd : eventUndefined e s = false := by
      rw [← Bool.not_eq_true, ← refusingStep_eq_none_iff hp, h]
      nofun
    refine ⟨Option.some.inj (h.symm.trans (refusingStep_of_defined hp hd)), ?_⟩
    rintro _ _ ⟨⟩
    exact hd

/-! #### Which events name an undefined value -/

theorem eventUndefined_command (hd : decode w = .ok i) : eventUndefined (.write 0x00 32 w) s = !sourcesWritten i s := by
  simp [eventUndefined, hd]

theorem eventUndefined_write_other {width : Nat} (h : offset ≠ 0x00 ∨ width ≠ 32 ∨ Rejected w) :
    eventUndefined (.write offset width w) s = false := by
  rcases h with h | h | ⟨r, hr⟩
  · simp [eventUndefined, h]
  · simp [eventUndefined, h]
  · simp [eventUndefined, hr]

theorem eventUndefined_read_register : eventUndefined (.read offset 32) s = !viewWritten offset s := by
  simp [eventUndefined]

/-- The ranges of the two buffers do not overlap (R58, log 5). -/
theorem inOutput_eq_false_of_inInput {c : Config} (h : inInput c offset = true) : inOutput c offset = false := by
  obtain ⟨-, -, -, -, -, -, -, -, hdisj⟩ := c.admitted
  have hin := of_decide_eq_true h
  exact decide_eq_false (by omega)

theorem eventUndefined_read_input {k : Nat} (hg : portTarget s.config offset = some (.input k)) :
    eventUndefined (.read offset 8) s = (s.ibuf.read k).isNone := by
  rcases portTarget_cases s.config offset with ⟨r, -, -, h⟩ | ⟨-, hin, h⟩ | ⟨-, -, -, h⟩ | ⟨-, -, -, h⟩ <;>
    cases h.symm.trans hg
  simp [eventUndefined, hin, inOutput_eq_false_of_inInput hin]

theorem eventUndefined_read_output {k : Nat} (hg : portTarget s.config offset = some (.output k)) :
    eventUndefined (.read offset 8) s = (s.obuf.read k).isNone := by
  rcases portTarget_cases s.config offset with ⟨r, -, -, h⟩ | ⟨-, -, h⟩ | ⟨-, hin, hout, h⟩ | ⟨-, -, -, h⟩ <;>
    cases h.symm.trans hg
  simp [eventUndefined, hin, hout]

theorem viewWritten_of_other (h : offset ∉ [0x04, 0x08, 0x0C, 0x10, 0x14, 0x18, 0x1C]) : viewWritten offset s = true := by
  unfold viewWritten
  split
  case h_8 => rfl
  all_goals exact absurd (by decide) h

theorem eventUndefined_read_other {width : Nat}
    (hreg : width = 32 → offset ∉ [0x04, 0x08, 0x0C, 0x10, 0x14, 0x18, 0x1C])
    (hunit : width = 8 → inInput s.config offset = false ∧ inOutput s.config offset = false) :
    eventUndefined (.read offset width) s = false := by
  by_cases h32 : width = 32
  · subst h32
    rw [eventUndefined_read_register, viewWritten_of_other (hreg rfl)]
    rfl
  by_cases h8 : width = 8
  · simp [eventUndefined, h8, hunit h8]
  · simp [eventUndefined, h32, h8]

theorem viewWritten_symbol {l : Lane} (h : (l, offset) ∈ [(Lane.l0, 0x10), (.l1, 0x14), (.l2, 0x18), (.l3, 0x1C)]) :
    viewWritten offset s = (s.symbols.get l).written := by
  simp only [List.mem_cons, Prod.mk.injEq, List.not_mem_nil, or_false] at h
  rcases h with ⟨rfl, rfl⟩ | ⟨rfl, rfl⟩ | ⟨rfl, rfl⟩ | ⟨rfl, rfl⟩ <;> rfl

theorem viewWritten_breg_eq_false_iff : viewWritten 0x08 s = false ↔
    s.bytes.l0.written = false ∨ s.bytes.l1.written = false ∨ s.bytes.l2.written = false := by
  simp only [viewWritten, Bool.and_eq_false_iff, or_assoc]

theorem viewWritten_sreg_eq_false_iff : viewWritten 0x0C s = false ↔ ∃ l, (s.sextets.get l).written = false := by
  have hlane (p : Lane → Prop) : (∃ l, p l) ↔ ((p .l0 ∨ p .l1) ∨ p .l2) ∨ p .l3 := by
    constructor
    · rintro ⟨l, hl⟩
      cases l <;> tauto
    · rintro (((h | h) | h) | h) <;> exact ⟨_, h⟩
  rw [hlane]
  simp only [viewWritten, Bool.and_eq_false_iff, Quad.get]

/-! #### What is left of the stops and of undefined STATUS -/

theorem exec_ne_refused {r : Refusal} (hw : sourcesWritten i s = true) : exec i s ≠ .refused r := by
  obtain ⟨t, ht⟩ := (exec_next_iff i s).2 (inputWritten_of_sourcesWritten hw)
  rw [ht]
  nofun

theorem hasValue_of_defined {g : PortTarget} (hg : portTarget s.config offset = some g)
    (hd : eventUndefined (.read offset g.width) s = false) : g.hasValue s = true := by
  cases g with
  | reg r => rfl
  | input k => exact Option.isNone_eq_false_iff.1 ((eventUndefined_read_input hg).symm.trans hd)
  | output k => exact Option.isNone_eq_false_iff.1 ((eventUndefined_read_output hg).symm.trans hd)

/-- A read of defined values is refused by its width only (R57). -/
theorem wrongWidth_of_read_refused {width : Nat} {r : Refusal} (hp : s.pending = .read offset width :: rest)
    (hd : eventUndefined (.read offset width) s = false) (h : step s = .refused r) : r = .wrongWidth offset width := by
  cases hg : portTarget s.config offset with
  | none => cases (step_unmapped (v := 0) hg (.inl hp)).symm.trans h
  | some g =>
    by_cases hw : g.width = width
    · subst hw
      obtain ⟨t, ht⟩ := (portRead_next_iff offset g { s with pending := rest }).2
        ((g.hasValue_pending s rest).trans (hasValue_of_defined hg hd))
      cases ((step_read hg rfl hp).trans ht).symm.trans h
    · cases (step_wrongWidth (v := 0) hg hw (.inl hp)).symm.trans h
      rfl

/-- A command word over defined sources is not refused. -/
theorem step_commandWord_ne_refused {r : Refusal} (hp : s.pending = .write 0x00 32 w :: rest)
    (hd : eventUndefined (.write 0x00 32 w) s = false) : step s ≠ .refused r := by
  cases hdec : decode w with
  | error q =>
    rw [step_illegal hdec hp]
    nofun
  | ok j =>
    rw [eventUndefined_command hdec, Bool.not_eq_false', ← sourcesWritten_pending s j rest] at hd
    rw [step_command hdec hp]
    exact exec_ne_refused hd

/-- A write, and a command over defined sources, is refused by its width only (R57). -/
theorem wrongWidth_of_write_refused {width : Nat} {r : Refusal} (hp : s.pending = .write offset width w :: rest)
    (hd : eventUndefined (.write offset width w) s = false) (h : step s = .refused r) : r = .wrongWidth offset width := by
  cases hg : portTarget s.config offset with
  | none => cases (step_unmapped hg (.inr hp)).symm.trans h
  | some g =>
    by_cases hw : g.width = width
    · by_cases hcmd : g = .reg .cmd
      · subst hcmd
        obtain rfl := offset_eq_zero_of_cmd hg
        obtain rfl : 32 = width := hw
        exact absurd h (step_commandWord_ne_refused hp hd)
      · cases (step_write hg hw hcmd hp).symm.trans h
    · cases (step_wrongWidth hg hw (.inr hp)).symm.trans h
      rfl

/-- Where the event names defined values only, the one refusal of a step is that of a wrong width (R57). -/
theorem wrongWidth_of_step_refused {r : Refusal} (hp : s.pending = e :: rest) (hd : eventUndefined e s = false)
    (h : step s = .refused r) : ∃ offset width, r = .wrongWidth offset width := by
  cases e with
  | reset => cases (step_reset hp).symm.trans h
  | read offset width => exact ⟨offset, width, wrongWidth_of_read_refused hp hd h⟩
  | write offset width v => exact ⟨offset, width, wrongWidth_of_write_refused hp hd h⟩

@[simp] theorem portWrite_statusWritten (g : PortTarget) (v : Word) (s : State) :
    (portWrite g v s).statusWritten = s.statusWritten := by
  cases g with
  | reg r => cases r <;> rfl
  | input k | output k => rfl

/-- STATUS loses its mark to a command over an undefined source only (log 13). -/
theorem step_keeps_statusWritten (hst : s.statusWritten = true)
    (hd : ∀ e rest, s.pending = e :: rest → eventUndefined e s = false) (h : step s = .next t) :
    t.statusWritten = true := by
  rcases step_next_cases h with ⟨-, rfl⟩ | ⟨e, rest, hp, hcase⟩
  · exact hst
  rcases hcase with ⟨-, rfl⟩ | ⟨_, _, v, -, rfl⟩ | ⟨_, _, v, g, -, -, -, -, rfl⟩ | ⟨_, w, j, rfl, hg, hdec, hexec⟩ |
    ⟨_, _, _, -, -, -, rfl⟩
  · rfl
  · exact hst
  · exact (portWrite_statusWritten g v _).trans hst
  · obtain rfl := offset_eq_zero_of_cmd hg
    obtain ⟨hmark, -⟩ := exec_marks hexec
    have hsrc := hd _ _ hp
    rw [eventUndefined_command hdec, Bool.not_eq_false'] at hsrc
    rw [hmark, sourcesWritten_pending, hsrc]
  · rfl

end Refusing

/-- Settles O50, event by event: which events name an undefined value, and that on the others `refusingStep` is `step`. -/
theorem refusingStepRefusesNeverWritten : Obligations.RefusingStepRefusesNeverWritten := by
  intro s
  refine ⟨fun w i rest hp hd => ?_, fun rest hp => ?_, fun rest hp => ?_, fun l off rest hl hp => ?_,
    fun k rest hk hp => ?_, fun k rest hk hp => ?_, fun rest hp => ?_, refusingStep_of_idle,
    fun rest hp => refusingStep_of_defined hp rfl, fun off width v rest hp h => ?_, fun off width rest hp hreg hunit => ?_,
    fun o h => (eq_step_of_refusingStep h).1, fun t hst h => ?_, fun r h => ?_⟩
  · rw [refusingStep_eq_none_iff hp, eventUndefined_command hd, Bool.not_eq_true']
  · rw [refusingStep_eq_none_iff hp, eventUndefined_read_register, Bool.not_eq_true', viewWritten_breg_eq_false_iff]
  · rw [refusingStep_eq_none_iff hp, eventUndefined_read_register, Bool.not_eq_true', viewWritten_sreg_eq_false_iff]
  · rw [refusingStep_eq_none_iff hp, eventUndefined_read_register, Bool.not_eq_true', viewWritten_symbol hl]
  · rw [refusingStep_eq_none_iff hp, eventUndefined_read_input (portTarget_ibufBase_add hk), Option.isNone_iff_eq_none]
  · rw [refusingStep_eq_none_iff hp, eventUndefined_read_output (portTarget_obufBase_add hk), Option.isNone_iff_eq_none]
    refine ⟨.rfl, fun hi => ?_⟩
    rw [← Option.not_isSome_iff_eq_none, hi.obufExact, Nat.not_lt]
  · rw [refusingStep_eq_none_iff hp, eventUndefined_read_register, Bool.not_eq_true']
    rfl
  · exact refusingStep_of_defined hp (eventUndefined_write_other h)
  · exact refusingStep_of_defined hp (eventUndefined_read_other hreg fun h8 =>
      ⟨decide_eq_false (hunit h8).1, decide_eq_false (hunit h8).2⟩)
  · obtain ⟨hs, hd⟩ := eq_step_of_refusingStep h
    exact step_keeps_statusWritten hst hd hs.symm
  · obtain ⟨hs, hd⟩ := eq_step_of_refusingStep h
    cases hp : s.pending with
    | nil => cases (idleBlockHoldsState s hp).symm.trans hs.symm
    | cons e rest => exact wrongWidth_of_step_refused hp (hd e rest hp) hs.symm

end Sys2Proof.Machine
